-- ==== Sys2Proof/Word.lean ====
section
/-! DEFINITION. The word types of the PWSE: a 32-bit register, a byte, a 64-bit counter or nonce pattern, a 32-byte
buffer (00_scope.md R8, R9, R11). -/

namespace Sys2Proof

/-- A 32-bit register, command word or bus datum (R9, R90). -/
abbrev Word := BitVec 32

/-- One byte of a buffer; bit 7 is its most significant bit (R11). -/
abbrev Byte := BitVec 8

/-- A 64-bit pattern: a nonce (signed, two's complement, R12) or the iteration count (R34). -/
abbrev Word64 := BitVec 64

/-- A buffer of exactly 32 bytes, byte 0 first: the seed (R33) or a digest (R37). -/
abbrev Bytes32 := Vector Byte 32

/-- A byte string, byte 0 first (R11): what the hash takes. -/
abbrev Bytes := List Byte

end Sys2Proof
end

