-- ==== Sys2Proof/Syntax.lean ====
section
/-! DEFINITION. Syntax: the nine commands (30_encoding.md R94), the names of the register map (10_state.md R20), the
bus access (20_memory.md R60, R62; 70_reset_and_hazards.md R247), and the host assembly language (R99, R100). -/

namespace Sys2Proof

/-- A command, one constructor per row of spec/opcode_table.json (R94). The only operand is `imm8`, an unsigned 8-bit
value of which every value is legal (R93), so its type says all that there is to check. -/
inductive Instr where
  /-- `NOP` (R190): no operation. -/
  | nop
  /-- `SRST` (R192): soft reset. -/
  | srst
  /-- `ABORT` (R194): ask the running operation to stop. -/
  | abort
  /-- `SEEDCLR` (R110): clear the seed buffer. -/
  | seedclr
  /-- `SEEDB imm8` (R111): push one seed byte. -/
  | seedb (imm8 : Byte)
  /-- `SETTGT imm8` (R140): construct a difficulty target. -/
  | settgt (imm8 : Byte)
  /-- `SETTGTDEF` (R142): construct the default preset target. -/
  | settgtdef
  /-- `SEARCH` (R160): start a proof-of-work search. -/
  | search
  /-- `VERIFY` (R180): check one candidate. -/
  | verify
  deriving DecidableEq, Repr

/-- The named registers of the window (R20). The two byte buffers have one name per word. -/
inductive Reg where
  | id | cfg | cmd | status | irqEn | errInfo | nonceLo | nonceHi | target | seedCnt
  | itersLo | itersHi | resNonceLo | resNonceHi | resInfo
  | seedW (w : Fin 8)
  | resDigestW (w : Fin 8)
  deriving DecidableEq, Repr

/-- The width of a bus access. The block answers only 32-bit ones (R62). -/
inductive AccessWidth where
  | w8 | w16 | w32 | w64
  deriving DecidableEq, Repr

/-- What a bus access asks for: a read, or a write of a 32-bit datum (R63, R64). -/
inductive AccessKind where
  | read
  | write (v : Word)
  deriving DecidableEq, Repr

/-- One host access that reaches the window: its width, its byte offset in the window (the 8-bit port `bus_addr`, R247)
and its kind. -/
structure Access where
  width : AccessWidth
  off : BitVec 8
  kind : AccessKind
  deriving DecidableEq, Repr

/-- A statement of the host assembly language (R99) or one of its pseudo-instructions (R100). Operands are the numbers
as written; `ldseed` has its hexadecimal digits, first digit first. -/
inductive AsmStmt where
  | nop | srst | abort | seedclr
  | seedb (imm8 : Int)
  | settgt (imm8 : Int)
  | settgtdef | search | verify
  | wr (r : Reg) (imm32 : Int)
  | rd (r : Reg)
  | waitIdle
  | ldseed (digits : List (BitVec 4))
  | ldnonce (n : Int)
  | clrstatus | runSearch | runVerify
  deriving DecidableEq, Repr

end Sys2Proof
end

