-- ==== Sys2Proof/Decode.lean ====
section
/-! DEFINITION. Decoding a command word (30_encoding.md R90 to R96), total and rejecting by name, and the encoder. -/

namespace Sys2Proof

/-- Why a word is `Illegal` (R96). -/
inductive DecodeError where
  /-- The opcode is none of R94's. -/
  | unassignedOpcode (opc : Byte)
  /-- The opcode is legal and a reserved bit of its format is set. -/
  | reservedBitSet (opc : Byte)
  deriving DecidableEq, Repr

/-- `OPC`, bits [7:0] of a command word (R90). -/
def opcOf (w : Word) : Byte := w.extractLsb' 0 8

/-- `IMM8`, bits [15:8] of a command word (R90, R93). -/
def imm8Of (w : Word) : Byte := w.extractLsb' 8 8

/-- Format N (R91): bits [31:8] must all be 0. -/
def decodeN (w : Word) (i : Instr) : Except DecodeError Instr :=
  if w.extractLsb' 8 24 = 0 then .ok i else .error (.reservedBitSet (opcOf w))

/-- Format I (R92): bits [31:16] must all be 0 and bits [15:8] are the operand. -/
def decodeI (w : Word) (f : Byte → Instr) : Except DecodeError Instr :=
  if w.extractLsb' 16 16 = 0 then .ok (f (imm8Of w)) else .error (.reservedBitSet (opcOf w))

/-- `decode` (R95): every 32-bit word gives one command, or is refused as `Illegal` by a named reason. -/
def decode (w : Word) : Except DecodeError Instr :=
  if opcOf w = 0x00 then decodeN w .nop
  else if opcOf w = 0x01 then decodeN w .srst
  else if opcOf w = 0x02 then decodeN w .abort
  else if opcOf w = 0x10 then decodeN w .seedclr
  else if opcOf w = 0x11 then decodeI w .seedb
  else if opcOf w = 0x20 then decodeI w .settgt
  else if opcOf w = 0x21 then decodeN w .settgtdef
  else if opcOf w = 0x30 then decodeN w .search
  else if opcOf w = 0x31 then decodeN w .verify
  else .error (.unassignedOpcode (opcOf w))

/-- A format N word (R91). -/
def wordN (opc : Byte) : Word := (0 : BitVec 24) ++ opc

/-- A format I word (R92). -/
def wordI (opc imm8 : Byte) : Word := (0 : BitVec 16) ++ imm8 ++ opc

/-- The word of a command (R91, R92, R94). -/
def encode : Instr → Word
  | .nop => wordN 0x00
  | .srst => wordN 0x01
  | .abort => wordN 0x02
  | .seedclr => wordN 0x10
  | .seedb imm8 => wordI 0x11 imm8
  | .settgt imm8 => wordI 0x20 imm8
  | .settgtdef => wordN 0x21
  | .search => wordN 0x30
  | .verify => wordN 0x31

/-- The command word that a table row's number stands for: its low `nbits` bits, if they fit the one word a command has
(R90, R98). -/
def tableWord (nbits w : Nat) : Option Word :=
  if w % 2 ^ nbits < 2 ^ 32 then some (BitVec.ofNat 32 (w % 2 ^ nbits)) else none

/-- What the decoder gives for an instruction whose bits are the number `w`. -/
def decodeTableWord (nbits w : Nat) : Option Instr :=
  match tableWord nbits w with
  | some v =>
    match decode v with
    | .ok i => some i
    | .error _ => none
  | none => none

end Sys2Proof
end

