-- ==== Sys2Proof/Config.lean ====
section
/-! DEFINITION. What an implementation fixes: the parameters of 00_scope.md R8 and R9, the identification constants of
R3, R23 and R24, and the open parameters of 92_eei_decisions.md as constants with no body. -/

namespace Sys2Proof.Config

/-- `SEED_LEN` (R8): the required seed length in bytes. -/
def seedLen : Byte := 32

/-- `MIN_TARGET` (R8): the smallest valid difficulty. -/
def minTarget : Byte := 1

/-- `DEFAULT_TARGET` (R8): the preset difficulty. -/
def defaultTarget : Byte := 16

/-- `DIGEST_LEN` (R8): the digest's length in bytes. -/
def digestLen : Byte := 32

/-- `DIAG_THRESHOLD` (R8, R165), compared as a signed number. DESIGN CHOICE (log entry 7): the model takes the value R8
fixes, where 92_eei_decisions.md also allows it as a parameter. Unsafe. -/
def diagThreshold : Int := 500000

/-- `SEED_CNT` saturates here (R9, R32). -/
def seedCntMax : Byte := 255

/-- The `ID` register's constant, ASCII "PWSE" (R3, R23). -/
def idValue : Word := 0x50575345

/-- The `CFG` register: four byte fields, `DIGEST_LEN` topmost (R24). -/
def cfgValue : Word := digestLen ++ defaultTarget ++ minTarget ++ seedLen

/-- The open parameter `PWSE_BASE` (R9, R60, D2) is 256-byte aligned: this is its number of 256-byte pages. Nothing in
the block depends on it, so no proof can know it (log entry 5). Safe. -/
opaque pwsePage : Nat

/-- `PWSE_BASE`, the host address of the register window: a multiple of 256 (R60). -/
def pwseBase : Nat := 256 * pwsePage

/-- The window's size in bytes (R9, R60). -/
def windowBytes : Nat := 256

/-- The open parameter `CYCLES_PER_CANDIDATE` (R9, R246, D28): no rule depends on it (log entry 8). -/
opaque cyclesPerCandidate : Nat

/-- The open parameter `IRQ_LINE` (R9, R210, D20): the platform's name of the line `irq` drives. No rule depends on it
(log entry 5). -/
opaque irqLine : Nat

end Sys2Proof.Config
end

