-- ==== Sys2Proof/Machine/State.lean ====
section
/-! DEFINITION. The machine's state: every row of 10_state.md R43, and two fields of the model's own that hold the host
side of the interface (`agenda`, `rdata`). The block has no memory, no register file and no stored program (R39, R61). -/

namespace Sys2Proof.Machine

open Sys2Proof

/-- `MODE` (R21): the sequencer's control state, the block's only program counter. -/
inductive Mode where
  /-- No engine step is enabled. -/
  | idle
  /-- The search iteration step (R163) is enabled. -/
  | search
  /-- The verification step (R182) is enabled. -/
  | verify
  deriving DecidableEq, Repr

/-- The six bits [6:1] of `STATUS` (R26) or of `IRQ_EN` (R28), under the names `STATUS` gives them; `BUSY` has no
storage (R27) and bits [31:7] read 0. -/
structure StatusBits where
  /-- Bit 1: the last `SEARCH` or `VERIFY` succeeded. -/
  done : Bool
  /-- Bit 2: an error was reported. -/
  err : Bool
  /-- Bit 3: a search found a nonce over `DIAG_THRESHOLD`. -/
  hinonce : Bool
  /-- Bit 4: a search increment crossed 2^63 - 1. -/
  nwrap : Bool
  /-- Bit 5: a write was dropped because the block was busy. -/
  busyviol : Bool
  /-- Bit 6: an engine step took a pending abort. -/
  aborted : Bool
  deriving DecidableEq, Repr

/-- All six bits 0: the reset value of `STATUS[6:1]` and of `IRQ_EN[6:1]` (R43). -/
def StatusBits.zero : StatusBits := ⟨false, false, false, false, false, false⟩

/-- The fields of `ERRINFO` (R29). -/
structure ErrInfo where
  /-- `CODE`, bits [3:0]. -/
  code : BitVec 4
  /-- `EXP`, bits [15:8]. -/
  exp : BitVec 8
  /-- `ACT`, bits [24:16]. -/
  act : BitVec 9
  deriving DecidableEq, Repr

/-- `ERRINFO` = 0: no error (R43, R200 code 0). -/
def ErrInfo.zero : ErrInfo := ⟨0, 0, 0⟩

/-- The result group (R35 to R38), written as a whole. -/
structure ResultGroup where
  /-- `RES_NONCE` (R35). -/
  nonce : Word64
  /-- `RES_TGT` (R36). -/
  tgt : BitVec 8
  /-- `RES_LZC` (R36). -/
  lzc : BitVec 9
  /-- `RES_DIGEST` (R37). -/
  digest : Bytes32
  deriving DecidableEq, Repr

/-- The result group at reset (R43). -/
def ResultGroup.zero : ResultGroup := ⟨0, 0, 0, Vector.replicate 32 0⟩

/-- One atomic step that the outside world decides (R7, R73): a host access, an engine step of a busy block, or a
reset of the platform (R231). -/
inductive Event where
  | access (a : Access)
  | engine
  | reset
  deriving DecidableEq, Repr

/-- The complete architectural state (R43), and the model's two host-side fields. -/
structure State where
  /-- `MODE` (R21). -/
  mode : Mode
  /-- `ABORT_REQ` (R22). -/
  abortReq : Bool
  /-- `STATUS[6:1]` (R26). -/
  status : StatusBits
  /-- `IRQ_EN[6:1]` (R28). -/
  irqEn : StatusBits
  /-- `ERRINFO` (R29). -/
  errInfo : ErrInfo
  /-- `NONCE` (R30): a signed number's two's-complement pattern. -/
  nonce : Word64
  /-- `TARGET` (R31); 0 means that no valid target is held. -/
  target : BitVec 8
  /-- `SEED_CNT` (R32). -/
  seedCnt : BitVec 8
  /-- `SEED[0..31]` (R33). -/
  seed : Bytes32
  /-- `ITERS` (R34). -/
  iters : Word64
  /-- The result group (R35 to R38). -/
  result : ResultGroup
  /-- The MODEL's own: the steps still to come that the outside world decides, next one first. It says which agent moves
  (R7, R73; log entry 1). Once it is used up, the engine takes every step it has enabled. -/
  agenda : List Event
  /-- The MODEL's own: what the last host read answered (`bus_rdata`, R247), none before the first read (log entry 4). -/
  rdata : Option Word
  deriving DecidableEq, Repr

/-- The machine right after reset (R43, R230), with no outside step yet to come and no read answered (log entries 2, 4). -/
def State.reset : State where
  mode := .idle
  abortReq := false
  status := StatusBits.zero
  irqEn := StatusBits.zero
  errInfo := ErrInfo.zero
  nonce := 0
  target := Config.defaultTarget
  seedCnt := 0
  seed := Vector.replicate 32 0
  iters := 0
  result := ResultGroup.zero
  agenda := []
  rdata := none

/-- Why a step faults. -/
inductive Fault where
  /-- Raised by a host access of another width than 32 bits or at an offset with `off mod 4 ≠ 0` (R62, D4): the bus
  answers an error response, no state changes, and a read returns no defined data. Safe: the model stops where a host
  could go on after the error response (log entry 3). -/
  | busError
  deriving DecidableEq, Repr

/-- Why a step has no meaning. -/
inductive Refusal where
  /-- An instruction without a meaning, by its mnemonic. No arm of `exec` answers it. Safe. -/
  | notModelled (mnemonic : String)
  deriving DecidableEq, Repr

/-- A step's answer on this machine. -/
abbrev Result := Host.Outcome State Fault Refusal

end Sys2Proof.Machine
end

