-- ==== Sys2Proof/Machine/Flags.lean ====
section
/-! DEFINITION. The status flags as words (R26 to R29, R63), the write-1-to-clear of `STATUS` (R26, R64), the
interrupt line (R210). -/

namespace Sys2Proof.Machine

open Sys2Proof

/-- One bit of a register, as a word of one bit. -/
def bit1 (b : Bool) : BitVec 1 := BitVec.ofBool b

/-- `{25'b0, ABORTED, BUSYVIOL, NWRAP, HINONCE, ERR, DONE, bit0}`: the six bits at their places [6:1] (R63). -/
def statusBitsWord (b : StatusBits) (bit0 : Bool) : Word :=
  (0 : BitVec 25) ++ bit1 b.aborted ++ bit1 b.busyviol ++ bit1 b.nwrap ++ bit1 b.hinonce ++ bit1 b.err ++
    bit1 b.done ++ bit1 bit0

/-- Bits [6:1] of a written word; its other bits are dropped (R28). -/
def statusBitsOf (v : Word) : StatusBits where
  done := v.getLsbD 1
  err := v.getLsbD 2
  hinonce := v.getLsbD 3
  nwrap := v.getLsbD 4
  busyviol := v.getLsbD 5
  aborted := v.getLsbD 6

/-- The `STATUS` write: each of bits 1..6 that is 1 in `v` clears that flag (R26, R64). -/
def clearOnes (b : StatusBits) (v : Word) : StatusBits where
  done := b.done && !v.getLsbD 1
  err := b.err && !v.getLsbD 2
  hinonce := b.hinonce && !v.getLsbD 3
  nwrap := b.nwrap && !v.getLsbD 4
  busyviol := b.busyviol && !v.getLsbD 5
  aborted := b.aborted && !v.getLsbD 6

/-- `STATUS.BUSY`: exactly when `MODE` is not `IDLE` (R27). -/
def busy (s : State) : Bool := decide (s.mode ≠ .idle)

/-- `STATUS` as a host reads it (R26, R63). -/
def statusWord (s : State) : Word := statusBitsWord s.status (busy s)

/-- `IRQ_EN` as a host reads it: bit 0 and bits [31:7] read 0 (R28, R63). -/
def irqEnWord (s : State) : Word := statusBitsWord s.irqEn false

/-- `{7'b0, ACT, EXP, 4'b0, CODE}`: `ERRINFO` as a host reads it (R29, R63). -/
def errInfoWord (e : ErrInfo) : Word :=
  (0 : BitVec 7) ++ e.act ++ e.exp ++ (0 : BitVec 4) ++ e.code

/-- `{7'b0, RES_LZC, 8'b0, RES_TGT}`: `RES_INFO` as a host reads it (R36, R63). -/
def resInfoWord (r : ResultGroup) : Word :=
  (0 : BitVec 7) ++ r.lzc ++ (0 : BitVec 8) ++ r.tgt

/-- The interrupt output: the OR over bits 1..6 of flag AND enable (R42, R210). -/
def irq (s : State) : Bool :=
  (s.status.done && s.irqEn.done) || (s.status.err && s.irqEn.err) ||
  (s.status.hinonce && s.irqEn.hinonce) || (s.status.nwrap && s.irqEn.nwrap) ||
  (s.status.busyviol && s.irqEn.busyviol) || (s.status.aborted && s.irqEn.aborted)

end Sys2Proof.Machine
end

