-- ==== Sys2Proof/Machine/Operands.lean ====
section
/-! DEFINITION. Operands and register views: the halves of a 64-bit register (R30, R70), the byte lanes of a buffer
(R33, R67), the signed reading of a nonce (R12). -/

namespace Sys2Proof.Machine

open Sys2Proof

/-- Bits [31:0] of a 64-bit register (R70). -/
def loHalf (x : Word64) : Word := x.extractLsb' 0 32

/-- Bits [63:32] of a 64-bit register (R70). -/
def hiHalf (x : Word64) : Word := x.extractLsb' 32 32

/-- `{X[63:32], v}`: the low half replaced (R30). -/
def withLo (x : Word64) (v : Word) : Word64 := hiHalf x ++ v

/-- `{v, X[31:0]}`: the high half replaced (R30). -/
def withHi (x : Word64) (v : Word) : Word64 := v ++ loHalf x

/-- `s64(v)`: the pattern read as a two's-complement signed number (R12). -/
def s64 (v : Word64) : Int := v.toInt

/-- Word `w` of a byte buffer: byte `4w + j` in bits [8j+7 : 8j] (R67). -/
def laneWord (b : Bytes32) (w : Fin 8) : Word :=
  b[4 * w.val + 3] ++ b[4 * w.val + 2] ++ b[4 * w.val + 1] ++ b[4 * w.val]

/-- 2^63 - 1, the largest signed nonce (R166). -/
def maxSignedNonce : Word64 := 0x7FFFFFFFFFFFFFFF

end Sys2Proof.Machine
end

