-- ==== Sys2Proof/Machine/Ops.lean ====
section
/-! DEFINITION. The named operations over the state that the commands, the engine and the bus share: the error report
(the block's taking of an exception, R203) and its acknowledgement (R212), the busy rule (R240), the start of an
operation (R160, R161), the result capture (R164), reset (R230), and the register updates. -/

namespace Sys2Proof.Machine

open Sys2Proof

/-- The errors of R200 with their fields. -/
inductive PwseError where
  /-- Code 1 (R204). -/
  | seedLengthMismatch (expected actual : BitVec 8)
  /-- Code 2 (R205). -/
  | invalidDifficulty (minimum requested : BitVec 8)
  /-- Code 3 (R206). -/
  | insufficientLeadingZeros (expectedAtLeast : BitVec 8) (actual : BitVec 9)
  /-- Code 4 (R207). -/
  | illegalCommand (opcode : BitVec 8)
  deriving DecidableEq, Repr

/-- What `ERRINFO` holds for an error: code, expected value, actual value (R200). -/
def errInfoOf : PwseError → ErrInfo
  | .seedLengthMismatch expected actual => ⟨1, expected, actual.setWidth 9⟩
  | .invalidDifficulty minimum requested => ⟨2, minimum, requested.setWidth 9⟩
  | .insufficientLeadingZeros expectedAtLeast actual => ⟨3, expectedAtLeast, actual⟩
  | .illegalCommand opcode => ⟨4, 0, opcode.setWidth 9⟩

/-- TAKING AN EXCEPTION: the error report of R203. `ERR` is set and `ERRINFO` overwritten; nothing else changes, no
state is saved, there is no handler. -/
def raise (e : PwseError) (s : State) : State :=
  { s with status := { s.status with err := true }, errInfo := errInfoOf e }

/-- THE RETURN FROM ONE (R212): there is no return instruction; the host acknowledges by writing 1 to `STATUS` bits
(R26, R64). `ERRINFO` keeps its value. -/
def ackStatus (v : Word) (s : State) : State := { s with status := clearOnes s.status v }

/-- A write dropped because the block is busy (R240). -/
def dropBusy (s : State) : State := { s with status := { s.status with busyviol := true } }

/-- Reset (R230, R231): every architectural state takes its reset value; what the outside world still has to do and what
it last read are not the block's. -/
def applyResetValues (s : State) : State := { State.reset with agenda := s.agenda, rdata := s.rdata }

/-- `begin_operation()` (R161): `BUSYVIOL` is kept. -/
def beginOperation (s : State) : State :=
  { s with
    status := { StatusBits.zero with busyviol := s.status.busyviol }
    errInfo := ErrInfo.zero
    iters := 0
    abortReq := false }

/-- `MODE <- m`, the sequencer's control transfer (R13, R21). -/
def setMode (m : Mode) (s : State) : State := { s with mode := m }

/-- `ABORT_REQ <- 1` (R194). -/
def requestAbort (s : State) : State := { s with abortReq := true }

/-- An engine step that takes a pending abort (R163, R182). -/
def takeAbort (s : State) : State :=
  { s with abortReq := false, status := { s.status with aborted := true }, mode := .idle }

/-- `TARGET <- t` (R140, R142). -/
def setTarget (t : BitVec 8) (s : State) : State := { s with target := t }

/-- `SEEDCLR`'s effect (R110). -/
def clearSeed (s : State) : State := { s with seed := Vector.replicate 32 0, seedCnt := 0 }

/-- `SEEDB`'s effect (R111): the 33rd and later bytes are counted, not stored; the count saturates. -/
def pushSeed (b : Byte) (s : State) : State :=
  { s with
    seed := if s.seedCnt.toNat < 32 then s.seed.setIfInBounds s.seedCnt.toNat b else s.seed
    seedCnt := if s.seedCnt < Config.seedCntMax then s.seedCnt + 1 else s.seedCnt }

/-- `IRQ_EN <- v & 0x7E` (R28, R64). -/
def setIrqEn (v : Word) (s : State) : State := { s with irqEn := statusBitsOf v }

/-- `NONCE <- n`. -/
def setNonce (n : Word64) (s : State) : State := { s with nonce := n }

/-- `capture_result(n, t, z, d)` (R164): the whole result group at once. -/
def captureResult (n : Word64) (t : BitVec 8) (z : Nat) (d : Bytes32) (s : State) : State :=
  { s with result := ⟨n, t, BitVec.ofNat 9 z, d⟩ }

/-- `STATUS.DONE <- 1`, and `STATUS.HINONCE <- 1` where `hi` (R163, R165). -/
def setDone (hi : Bool) (s : State) : State :=
  { s with status := { s.status with done := true, hinonce := s.status.hinonce || hi } }

/-- `ITERS <- n` (R163, R182). -/
def setIters (n : Word64) (s : State) : State := { s with iters := n }

/-- The nonce iterator's increment (R163, R166): modulo 2^64, with `NWRAP` set by the one from 2^63 - 1. -/
def advanceNonce (s : State) : State :=
  { s with
    status := { s.status with nwrap := s.status.nwrap || decide (s.nonce = maxSignedNonce) }
    nonce := s.nonce + 1 }

/-- What a host read answers is left where the host finds it (log entry 4); no architectural state changes (R63). -/
def answerRead (v : Word) (s : State) : State := { s with rdata := some v }

/-- The busy rule of R97 and R240 for a command that only an idle block performs. -/
def whenIdle (f : State → State) (s : State) : Result :=
  .next (if s.mode = .idle then f s else dropBusy s)

/-- What the acceptance of `SEARCH` and `VERIFY` does (R160, R180): the target is checked before the seed count
(R208). -/
def startOperation (m : Mode) (s : State) : State :=
  let s1 := beginOperation s
  if s1.target = 0 then raise (.invalidDifficulty Config.minTarget 0) s1
  else if s1.seedCnt ≠ Config.seedLen then raise (.seedLengthMismatch Config.seedLen s1.seedCnt) s1
  else setMode m s1

end Sys2Proof.Machine
end

