-- ==== Sys2Proof/Machine/Control.lean ====
section
/-! DEFINITION. The control commands (46_control.md): `NOP`, `SRST`, `ABORT`, accepted in any mode (R97). -/

namespace Sys2Proof.Machine

/-- `NOP` (R190): nothing, in any mode. -/
def execNop (s : State) : Result := .next s

/-- `SRST` (R192, R193): every state at its reset value, in any mode. -/
def execSrst (s : State) : Result := .next (applyResetValues s)

/-- `ABORT` (R194): asks a running operation to stop at the next engine step; while idle it does nothing. -/
def execAbort (s : State) : Result := .next (if s.mode = .idle then s else requestAbort s)

end Sys2Proof.Machine
end

