-- ==== Sys2Proof/Machine/Search.lean ====
section
/-! DEFINITION. `SEARCH` (44_search_engine.md R160): its acceptance. The iterations are engine steps
(Machine/Engine.lean). -/

namespace Sys2Proof.Machine

/-- `SEARCH` (R160). -/
def execSearch (s : State) : Result := whenIdle (startOperation .search) s

end Sys2Proof.Machine
end

