-- ==== Sys2Proof/Machine/SeedLoad.lean ====
section
/-! DEFINITION. The seed commands (40_seed_load.md): `SEEDCLR`, `SEEDB`. -/

namespace Sys2Proof.Machine

open Sys2Proof

/-- `SEEDCLR` (R110). -/
def execSeedclr (s : State) : Result := whenIdle clearSeed s

/-- `SEEDB imm8` (R111). -/
def execSeedb (imm8 : Byte) (s : State) : Result := whenIdle (pushSeed imm8) s

end Sys2Proof.Machine
end

