-- ==== Sys2Proof/Machine/Target.lean ====
section
/-! DEFINITION. The target commands (42_difficulty_target.md): `SETTGT`, `SETTGTDEF`. -/

namespace Sys2Proof.Machine

open Sys2Proof

/-- What an accepted `SETTGT` does (R140): a request under the minimum leaves no valid target and is reported. -/
def constructTarget (imm8 : Byte) (s : State) : State :=
  if imm8 < Config.minTarget then raise (.invalidDifficulty Config.minTarget imm8) (setTarget 0 s)
  else setTarget imm8 s

/-- `SETTGT imm8` (R140). -/
def execSettgt (imm8 : Byte) (s : State) : Result := whenIdle (constructTarget imm8) s

/-- `SETTGTDEF` (R142). -/
def execSettgtdef (s : State) : Result := whenIdle (setTarget Config.defaultTarget) s

end Sys2Proof.Machine
end

