-- ==== Sys2Proof/Machine/Verify.lean ====
section
/-! DEFINITION. `VERIFY` (45_verification.md R180): its acceptance. The verification is an engine step
(Machine/Engine.lean). -/

namespace Sys2Proof.Machine

/-- `VERIFY` (R180). -/
def execVerify (s : State) : Result := whenIdle (startOperation .verify) s

end Sys2Proof.Machine
end

