-- ==== Sys2Proof/Machine/Dispatch.lean ====
section
/-! DEFINITION. One arm per command. -/

namespace Sys2Proof.Machine

open Sys2Proof

def exec (i : Instr) (s : State) : Host.Outcome State Fault Refusal :=
  match i with
  | .nop => Sys2Proof.Machine.execNop s
  | .srst => Sys2Proof.Machine.execSrst s
  | .abort => Sys2Proof.Machine.execAbort s
  | .seedclr => Sys2Proof.Machine.execSeedclr s
  | .seedb imm8 => Sys2Proof.Machine.execSeedb imm8 s
  | .settgt imm8 => Sys2Proof.Machine.execSettgt imm8 s
  | .settgtdef => Sys2Proof.Machine.execSettgtdef s
  | .search => Sys2Proof.Machine.execSearch s
  | .verify => Sys2Proof.Machine.execVerify s

end Sys2Proof.Machine
end

