-- ==== Sys2Proof/Machine/Sha256.lean ====
section
/-! DEFINITION. SHA-256 as 41_hasher.md section 3 gives it: padding (R125), initial state and output order (R126),
round constants (R127), compression of a block (R128). -/

namespace Sys2Proof.Machine

open Sys2Proof

/-- The eight words of the hash state, or of the working variables `a..h` (R126, R128). -/
structure ShaState where
  (a b c d e f g h : Word)
  deriving DecidableEq, Repr

/-- Word `i` of a row of eight 32-bit words that is written as one number, the leftmost being word 0: the layout in which
R126 and R127 list their constants. -/
def rowWord (row : BitVec 256) (i : Nat) : Word := row.extractLsb' (224 - 32 * i) 32

/-- The row of the initial values `h0..h7` (R126). -/
def shaInitRow : BitVec 256 :=
  0x6a09e667_bb67ae85_3c6ef372_a54ff53a_510e527f_9b05688c_1f83d9ab_5be0cd19

/-- The initial hash state (R126). -/
def shaInit : ShaState :=
  ⟨rowWord shaInitRow 0, rowWord shaInitRow 1, rowWord shaInitRow 2, rowWord shaInitRow 3,
   rowWord shaInitRow 4, rowWord shaInitRow 5, rowWord shaInitRow 6, rowWord shaInitRow 7⟩

/-- The round constants, one row per line of R127: row `r` is `K[8r..8r+7]`. -/
def shaKRows : List (BitVec 256) :=
  [0x428a2f98_71374491_b5c0fbcf_e9b5dba5_3956c25b_59f111f1_923f82a4_ab1c5ed5,
   0xd807aa98_12835b01_243185be_550c7dc3_72be5d74_80deb1fe_9bdc06a7_c19bf174,
   0xe49b69c1_efbe4786_0fc19dc6_240ca1cc_2de92c6f_4a7484aa_5cb0a9dc_76f988da,
   0x983e5152_a831c66d_b00327c8_bf597fc7_c6e00bf3_d5a79147_06ca6351_14292967,
   0x27b70a85_2e1b2138_4d2c6dfc_53380d13_650a7354_766a0abb_81c2c92e_92722c85,
   0xa2bfe8a1_a81a664b_c24b8b70_c76c51a3_d192e819_d6990624_f40e3585_106aa070,
   0x19a4c116_1e376c08_2748774c_34b0bcb5_391c0cb3_4ed8aa4a_5b9cca4f_682e6ff3,
   0x748f82ee_78a5636f_84c87814_8cc70208_90befffa_a4506ceb_bef9a3f7_c67178f2]

/-- The round constants `K[0..63]` (R127). -/
def shaK : List Word := shaKRows.flatMap (fun row => (List.range 8).map (rowWord row))

/-- A 32-bit word's bytes, most significant first: `be32` (R126). -/
def be32 (w : Word) : Bytes :=
  [w.extractLsb' 24 8, w.extractLsb' 16 8, w.extractLsb' 8 8, w.extractLsb' 0 8]

/-- The 8-byte big-endian encoding of a number, modulo 2^64: `be64` (R125). -/
def be64 (x : Nat) : Bytes :=
  be32 ((BitVec.ofNat 64 x).extractLsb' 32 32) ++ be32 ((BitVec.ofNat 64 x).extractLsb' 0 32)

/-- `k` of R125: the number of zero bytes that make a message of `len` bytes a whole number of blocks. -/
def padZeros (len : Nat) : Nat := (119 - len % 64) % 64

/-- The padded message (R125). -/
def shaPad (m : Bytes) : Bytes :=
  m ++ [0x80] ++ List.replicate (padZeros m.length) 0x00 ++ be64 (8 * m.length)

/-- The first `n` blocks of 64 bytes (R125). -/
def shaBlocks : Nat → Bytes → List Bytes
  | 0, _ => []
  | n + 1, bs => bs.take 64 :: shaBlocks n (bs.drop 64)

/-- A byte string read as big-endian 32-bit words (R125). -/
def beWords : Bytes → List Word
  | b0 :: b1 :: b2 :: b3 :: rest => (b0 ++ b1 ++ b2 ++ b3) :: beWords rest
  | _ => []

/-- `s0` of the message schedule (R128). -/
def smallSigma0 (x : Word) : Word := x.rotateRight 7 ^^^ x.rotateRight 18 ^^^ (x >>> 3)

/-- `s1` of the message schedule (R128). -/
def smallSigma1 (x : Word) : Word := x.rotateRight 17 ^^^ x.rotateRight 19 ^^^ (x >>> 10)

/-- `W[t]` from the words before it, NEWEST FIRST: index 1 is `W[t-2]`, 6 `W[t-7]`, 14 `W[t-15]`, 15 `W[t-16]` (R128). -/
def scheduleNext (ws : List Word) : Word :=
  ws.getD 15 0 + smallSigma0 (ws.getD 14 0) + ws.getD 6 0 + smallSigma1 (ws.getD 1 0)

/-- `n` more words of the schedule, newest first (R128). -/
def scheduleExtend : Nat → List Word → List Word
  | 0, ws => ws
  | n + 1, ws => scheduleExtend n (scheduleNext ws :: ws)

/-- The schedule `W[0..63]` of a block's sixteen words (R128). -/
def schedule (block : List Word) : List Word := (scheduleExtend 48 block.reverse).reverse

/-- `S0` (R128). -/
def bigSigma0 (x : Word) : Word := x.rotateRight 2 ^^^ x.rotateRight 13 ^^^ x.rotateRight 22

/-- `S1` (R128). -/
def bigSigma1 (x : Word) : Word := x.rotateRight 6 ^^^ x.rotateRight 11 ^^^ x.rotateRight 25

/-- `ch` (R128). -/
def shaCh (e f g : Word) : Word := (e &&& f) ^^^ (~~~e &&& g)

/-- `maj` (R128). -/
def shaMaj (a b c : Word) : Word := (a &&& b) ^^^ (a &&& c) ^^^ (b &&& c)

/-- One round with its constant and its schedule word (R128). -/
def shaRound (s : ShaState) (kw : Word × Word) : ShaState :=
  let t1 := s.h + bigSigma1 s.e + shaCh s.e s.f s.g + kw.1 + kw.2
  let t2 := bigSigma0 s.a + shaMaj s.a s.b s.c
  ⟨t1 + t2, s.a, s.b, s.c, s.d + t1, s.e, s.f, s.g⟩

/-- Word by word addition, modulo 2^32 each (R128). -/
def ShaState.add (x y : ShaState) : ShaState :=
  ⟨x.a + y.a, x.b + y.b, x.c + y.c, x.d + y.d, x.e + y.e, x.f + y.f, x.g + y.g, x.h + y.h⟩

/-- The compression of one 64-byte block (R128). -/
def shaCompress (h : ShaState) (block : Bytes) : ShaState :=
  h.add ((shaK.zip (schedule (beWords block))).foldl shaRound h)

/-- The digest `be32(h0) || ... || be32(h7)` (R126). -/
def shaDigest (h : ShaState) : Bytes32 :=
  ⟨⟨be32 h.a ++ be32 h.b ++ be32 h.c ++ be32 h.d ++ be32 h.e ++ be32 h.f ++ be32 h.g ++ be32 h.h⟩, rfl⟩

/-- SHA-256 of a byte string (R124 to R128). -/
def sha256 (m : Bytes) : Bytes32 :=
  shaDigest ((shaBlocks ((shaPad m).length / 64) (shaPad m)).foldl shaCompress shaInit)

end Sys2Proof.Machine
end

