-- ==== Sys2Proof/Machine/Hasher.lean ====
section
/-! DEFINITION. The hash pipeline (41_hasher.md): the candidate's message (R120, R121) and its double hash (R122). -/

namespace Sys2Proof.Machine

open Sys2Proof

/-- `H` is SHA-256 (R124). DESIGN CHOICE (log entry 6): fixed, where R10 also allows a parameter. -/
def hashH (m : Bytes) : Bytes32 := sha256 m

/-- `le64(n)`: byte `j` is `n[8j+7 : 8j]` (R121). -/
def le64 (n : Word64) : Bytes :=
  [n.extractLsb' 0 8, n.extractLsb' 8 8, n.extractLsb' 16 8, n.extractLsb' 24 8,
   n.extractLsb' 32 8, n.extractLsb' 40 8, n.extractLsb' 48 8, n.extractLsb' 56 8]

/-- `msg(n)`: the 32 seed bytes, then the 8 nonce bytes (R120, R112). -/
def candidateMsg (seed : Bytes32) (n : Word64) : Bytes := seed.toList ++ le64 n

/-- `DH(m) = H(H(m))` (R122). -/
def doubleHash (m : Bytes) : Bytes32 := hashH (hashH m).toList

/-- `D(n)`, the digest of candidate `n` (R122, R129). -/
def candidateDigest (seed : Bytes32) (n : Word64) : Bytes32 := doubleHash (candidateMsg seed n)

end Sys2Proof.Machine
end

