-- ==== Sys2Proof/Machine/Lzc.lean ====
section
/-! DEFINITION. The leading-zero-bit counter (43_leading_zero_counter.md R150) and the difficulty comparator
(42_difficulty_target.md R144). -/

namespace Sys2Proof.Machine

open Sys2Proof

/-- `clz8(b)`: leading 0 bits of a byte, from bit 7 down (R150). -/
def clz8 (b : Byte) : Nat := if b = 0 then 8 else 7 - Nat.log2 b.toNat

/-- The scan from byte `i` on: the first non-zero byte decides; none gives 8 times the number of bytes (R150). -/
def lzcFrom : Nat → Bytes → Nat
  | i, [] => 8 * i
  | i, b :: rest => if b = 0 then lzcFrom (i + 1) rest else 8 * i + clz8 b

/-- `LZC(d)`: the count of a digest, 0..256 (R150). -/
def lzc (d : Bytes32) : Nat := lzcFrom 0 d.toList

/-- `MEETS(z, t) = (z >= t)`: the comparator, unsigned (R144). -/
def meets (z : Nat) (t : BitVec 8) : Bool := decide (t.toNat ≤ z)

end Sys2Proof.Machine
end

