-- ==== Sys2Proof/Machine/Engine.lean ====
section
/-! DEFINITION. The engine's steps: the search iteration (44_search_engine.md R163) and the verification step
(45_verification.md R182). -/

namespace Sys2Proof.Machine

open Sys2Proof

/-- What a search iteration does once its candidate is hashed and counted: success ends the search, else the next step
tries the next nonce (R163, R164, R165). -/
def concludeSearch (z : Nat) (d : Bytes32) (s : State) : State :=
  if meets z s.target then
    setMode .idle (setDone (decide (s64 s.nonce > Config.diagThreshold)) (captureResult s.nonce s.target z d s))
  else s

/-- `search_step()` (R163): a pending abort is taken before any hashing; else the nonce is incremented BEFORE it is
hashed (90_conflicts.md C2). -/
def searchStep (s : State) : State :=
  if s.abortReq then takeAbort s
  else
    let s1 := advanceNonce s
    let d := candidateDigest s1.seed s1.nonce
    concludeSearch (lzc d) d (setIters (s1.iters + 1) s1)

/-- What the verification step does once the candidate is hashed and counted (R182). -/
def concludeVerify (z : Nat) (d : Bytes32) (s : State) : State :=
  if meets z s.target then setDone false (captureResult s.nonce s.target z d s)
  else raise (.insufficientLeadingZeros s.target (BitVec.ofNat 9 z)) s

/-- `verify_step()` (R182): the nonce is hashed as it is. -/
def verifyStep (s : State) : State :=
  if s.abortReq then takeAbort s
  else
    let d := candidateDigest s.seed s.nonce
    concludeVerify (lzc d) d (setMode .idle (setIters 1 s))

/-- The engine's one enabled step, if there is one (R21): none while idle. -/
def engineStep (s : State) : State :=
  match s.mode with
  | .idle => s
  | .search => searchStep s
  | .verify => verifyStep s

end Sys2Proof.Machine
end

