-- ==== Sys2Proof/Machine/RegMap.lean ====
section
/-! DEFINITION. The register map (10_state.md R20): each register's offset and what a host reads there (20_memory.md
R63). -/

namespace Sys2Proof.Machine

open Sys2Proof

/-- A register's byte offset in the window (R20). -/
def regOffset : Reg → BitVec 8
  | .id => 0x00
  | .cfg => 0x04
  | .cmd => 0x08
  | .status => 0x0C
  | .irqEn => 0x10
  | .errInfo => 0x14
  | .nonceLo => 0x18
  | .nonceHi => 0x1C
  | .target => 0x20
  | .seedCnt => 0x24
  | .itersLo => 0x28
  | .itersHi => 0x2C
  | .resNonceLo => 0x30
  | .resNonceHi => 0x34
  | .resInfo => 0x38
  | .seedW w => BitVec.ofNat 8 (0x40 + 4 * w.val)
  | .resDigestW w => BitVec.ofNat 8 (0x60 + 4 * w.val)

/-- The eight word indices of a 32-byte buffer (R33, R37). -/
def laneIndices : List (Fin 8) := [0, 1, 2, 3, 4, 5, 6, 7]

/-- The registers that stand alone, in the order of their offsets (R20). -/
def plainRegs : List Reg :=
  [.id, .cfg, .cmd, .status, .irqEn, .errInfo, .nonceLo, .nonceHi, .target, .seedCnt, .itersLo, .itersHi,
   .resNonceLo, .resNonceHi, .resInfo]

/-- Every register of the map, in the order of its offset (R20). -/
def allRegs : List Reg := plainRegs ++ laneIndices.map Reg.seedW ++ laneIndices.map Reg.resDigestW

/-- The register at an offset; none at a reserved one (R20, R38). -/
def regAt (off : BitVec 8) : Option Reg := allRegs.find? (fun r => regOffset r == off)

/-- What a read of a register returns (R63). -/
def readReg (s : State) : Reg → Word
  | .id => Config.idValue
  | .cfg => Config.cfgValue
  | .cmd => 0
  | .status => statusWord s
  | .irqEn => irqEnWord s
  | .errInfo => errInfoWord s.errInfo
  | .nonceLo => loHalf s.nonce
  | .nonceHi => hiHalf s.nonce
  | .target => s.target.setWidth 32
  | .seedCnt => s.seedCnt.setWidth 32
  | .itersLo => loHalf s.iters
  | .itersHi => hiHalf s.iters
  | .resNonceLo => loHalf s.result.nonce
  | .resNonceHi => hiHalf s.result.nonce
  | .resInfo => resInfoWord s.result
  | .seedW w => laneWord s.seed w
  | .resDigestW w => laneWord s.result.digest w

/-- `MemRead(PWSE_BASE + off, 4)` (R63): what it returns; reserved offsets read 0 (R38). -/
def memRead (s : State) (off : BitVec 8) : Word :=
  match regAt off with
  | some r => readReg s r
  | none => 0

end Sys2Proof.Machine
end

