-- ==== Sys2Proof/WellFormed.lean ====
section
/-! DEFINITION. The checks on words, accesses and assembly statements. A command of type `Instr` needs none: its one
operand is an 8-bit vector, and R93 makes every value legal. -/

namespace Sys2Proof

/-- A row of the opcode table (R94, spec/opcode_table.json): a word is the row's when its bits under `mask` are
`pattern`. -/
structure OpcodeRow where
  mnemonic : String
  mask : Word
  pattern : Word
  deriving DecidableEq, Repr

/-- The opcode table, row by row (R94). -/
def opcodeTable : List OpcodeRow :=
  [ ⟨"NOP",       0xFFFFFFFF, 0x00000000⟩,
    ⟨"SRST",      0xFFFFFFFF, 0x00000001⟩,
    ⟨"ABORT",     0xFFFFFFFF, 0x00000002⟩,
    ⟨"SEEDCLR",   0xFFFFFFFF, 0x00000010⟩,
    ⟨"SEEDB",     0xFFFF00FF, 0x00000011⟩,
    ⟨"SETTGT",    0xFFFF00FF, 0x00000020⟩,
    ⟨"SETTGTDEF", 0xFFFFFFFF, 0x00000021⟩,
    ⟨"SEARCH",    0xFFFFFFFF, 0x00000030⟩,
    ⟨"VERIFY",    0xFFFFFFFF, 0x00000031⟩ ]

/-- The word is one of the row's. -/
def OpcodeRow.accepts (r : OpcodeRow) (w : Word) : Bool := w &&& r.mask == r.pattern

/-- The word is legal: it is of some row of the opcode table (R95, R96). -/
def wordLegal (w : Word) : Bool := opcodeTable.any (·.accepts w)

/-- The access is one the block answers: 32 bits wide, at an offset with `off mod 4 = 0` (R62). -/
def Access.wellFormed (a : Access) : Bool := a.width == .w32 && a.off.toNat % 4 == 0

/-- `<imm8>` is in 0..255; any other value is an assembly error, never truncated (R99). -/
def imm8Ok (n : Int) : Bool := decide (0 ≤ n) && decide (n < 256)

/-- `<imm32>` fits a 32-bit register (R99). DESIGN CHOICE (log entry 12): it is read as an unsigned number. -/
def imm32Ok (n : Int) : Bool := decide (0 ≤ n) && decide (n < 2 ^ 32)

/-- The operand of `ldnonce` is a signed 64-bit integer (R100). -/
def nonceOk (n : Int) : Bool := decide (-2 ^ 63 ≤ n) && decide (n < 2 ^ 63)

/-- The statement assembles: every operand is in the range R99 and R100 give, and a seed has exactly 64 digits. -/
def AsmStmt.wellFormed : AsmStmt → Bool
  | .seedb n => imm8Ok n
  | .settgt n => imm8Ok n
  | .wr _ n => imm32Ok n
  | .ldseed digits => digits.length == 64
  | .ldnonce n => nonceOk n
  | .nop | .srst | .abort | .seedclr | .settgtdef | .search | .verify | .rd _ | .waitIdle
  | .clrstatus | .runSearch | .runVerify => true

end Sys2Proof
end

