-- ==== Sys2Proof/Machine/Bus.lean ====
section
/-! DEFINITION. What the outside world does to the block: the delivery of a command (30_encoding.md R97), host writes
and accesses (20_memory.md R60 to R64), and the atomic steps of the total order (R73). -/

namespace Sys2Proof.Machine

open Sys2Proof

/-- What a word that decodes to `Illegal` does (R96, R207, R240). -/
def illegalWord (w : Word) (s : State) : State :=
  if s.mode = .idle then raise (.illegalCommand (opcOf w)) s else dropBusy s

/-- `execute_command(w)` (R97), one atomic step. The busy check of R97 stands in each command's own meaning and in
`illegalWord`, because the three control commands do not make it. -/
def executeCommand (w : Word) (s : State) : Result :=
  match decode w with
  | .ok i => exec i s
  | .error _ => .next (illegalWord w s)

/-- A write of `NONCE_LO` or `NONCE_HI`: performed while idle, dropped while busy (R30, R64). -/
def writeNonce (n : Word64) (s : State) : State :=
  if s.mode = .idle then setNonce n s else dropBusy s

/-- A 32-bit write of a register (R64); read-only registers ignore it. -/
def writeReg (r : Reg) (v : Word) (s : State) : Result :=
  match r with
  | .cmd => executeCommand v s
  | .status => .next (ackStatus v s)
  | .irqEn => .next (setIrqEn v s)
  | .nonceLo => .next (writeNonce (withLo s.nonce v) s)
  | .nonceHi => .next (writeNonce (withHi s.nonce v) s)
  | .id | .cfg | .errInfo | .target | .seedCnt | .itersLo | .itersHi | .resNonceLo | .resNonceHi
  | .resInfo | .seedW _ | .resDigestW _ => .next s

/-- `MemWrite(PWSE_BASE + off, 4, v)` (R64); reserved offsets ignore it. -/
def memWrite (off : BitVec 8) (v : Word) (s : State) : Result :=
  match regAt off with
  | some r => writeReg r v s
  | none => .next s

/-- One host access (R60, R62): a fault unless it is 32 bits wide and aligned. -/
def hostAccess (a : Access) (s : State) : Result :=
  if a.wellFormed then
    match a.kind with
    | .read => .next (answerRead (memRead s a.off) s)
    | .write v => memWrite a.off v s
  else .fault .busError

/-- One step of the total order of R73. An engine step of an idle block is none: nothing changes (R21). -/
def performEvent (e : Event) (s : State) : Result :=
  match e with
  | .access a => hostAccess a s
  | .engine => .next (engineStep s)
  | .reset => .next (applyResetValues s)

/-- The next step: what the outside world has decided, or, when it has decided nothing more, the engine's own (R7, R172;
log entry 1). -/
def nextStep (s : State) : Result :=
  match s.agenda with
  | [] => .next (engineStep s)
  | e :: rest => performEvent e { s with agenda := rest }

/-- The host's write of a command word (R25). -/
def cmdWrite (w : Word) : Event := .access ⟨.w32, regOffset .cmd, .write w⟩

/-- The state in which the very next step is the write of a table row's word to `CMD` (log entry 2). A number that is no
command word is no write. -/
def offerTableWord (nbits w : Nat) (s : State) : State :=
  match tableWord nbits w with
  | some v => { s with agenda := cmdWrite v :: s.agenda }
  | none => s

end Sys2Proof.Machine
end

