-- ==== Sys2Proof/Machine/Step.lean ====
section
/-! DEFINITION. The step of the machine, and where the next instruction is fetched from. -/

namespace Sys2Proof.Machine

open Sys2Proof

/-- One atomic step of the total order (R73). -/
def step (s : State) : Host.Outcome State Fault Refusal := nextStep s

/-- `s` with a table row's word as what the host writes to `CMD` in the very next step. The block fetches no
instruction and stores no program (R61, R78): a command runs because the host writes it (log entry 2). -/
def State.withFetchWord (s : State) (nbits w : Nat) : State := offerTableWord nbits w s

end Sys2Proof.Machine
end

