-- ==== Sys2Proof/Machine/HostAsm.lean ====
section
/-! DEFINITION. The host's side of the interface: host addresses (20_memory.md R60, R71), the assembly language and its
pseudo-instructions (30_encoding.md R99, R100), and the host loop `wait_idle`. -/

namespace Sys2Proof.Machine

open Sys2Proof

/-- The access that a host address selects, if it lies in the window (R60); the decoding of other addresses is the
platform's (R71). -/
def accessAt (addr : Nat) (width : AccessWidth) (kind : AccessKind) : Option Access :=
  if Config.pwseBase ≤ addr ∧ addr < Config.pwseBase + Config.windowBytes then
    some ⟨width, BitVec.ofNat 8 (addr - Config.pwseBase), kind⟩
  else none

/-- What an assembly statement has the host do: one of the bus primitives of R13 on a host address, or the host loop. -/
inductive HostOp where
  /-- `MemRead(addr, 4)`. -/
  | memRead (addr : Nat)
  /-- `MemWrite(addr, 4, v)`. -/
  | memWrite (addr : Nat) (v : Word)
  /-- `wait_idle`: read `STATUS` until `BUSY` reads 0 (R99). -/
  | waitIdle
  deriving DecidableEq, Repr

/-- `PWSE_BASE + offset(REG)` (R99). -/
def regAddr (r : Reg) : Nat := Config.pwseBase + (regOffset r).toNat

/-- `wr REG, v` (R99). -/
def asmWr (r : Reg) (v : Word) : HostOp := .memWrite (regAddr r) v

/-- A command statement: one write of the command's word to `CMD` (R99). -/
def asmCmd (i : Instr) : HostOp := asmWr .cmd (encode i)

/-- Pairs of hexadecimal digits as bytes, the first digit of a pair high (R100). -/
def hexPairs : List (BitVec 4) → Bytes
  | hi :: lo :: rest => (hi ++ lo) :: hexPairs rest
  | _ => []

/-- What a well-formed statement expands to (R99, R100). -/
def asmExpand : AsmStmt → List HostOp
  | .nop => [asmCmd .nop]
  | .srst => [asmCmd .srst]
  | .abort => [asmCmd .abort]
  | .seedclr => [asmCmd .seedclr]
  | .seedb n => [asmCmd (.seedb (BitVec.ofInt 8 n))]
  | .settgt n => [asmCmd (.settgt (BitVec.ofInt 8 n))]
  | .settgtdef => [asmCmd .settgtdef]
  | .search => [asmCmd .search]
  | .verify => [asmCmd .verify]
  | .wr r n => [asmWr r (BitVec.ofInt 32 n)]
  | .rd r => [.memRead (regAddr r)]
  | .waitIdle => [.waitIdle]
  | .ldseed digits => asmCmd .seedclr :: (hexPairs digits).map (fun b => asmCmd (.seedb b))
  | .ldnonce n => [asmWr .nonceLo (loHalf (BitVec.ofInt 64 n)), asmWr .nonceHi (hiHalf (BitVec.ofInt 64 n))]
  | .clrstatus => [asmWr .status 0x0000007E]
  | .runSearch => [asmCmd .search, .waitIdle]
  | .runVerify => [asmCmd .verify, .waitIdle]

/-- The assembler (R99): none is an assembly error; an operand out of range is never truncated. -/
def assemble (a : AsmStmt) : Option (List HostOp) := if a.wellFormed then some (asmExpand a) else none

/-- The event a bus primitive is when it reaches the window. -/
def hostOpEvent : HostOp → Option Event
  | .memRead addr => (accessAt addr .w32 .read).map .access
  | .memWrite addr v => (accessAt addr .w32 (.write v)).map .access
  | .waitIdle => none

/-- `n` engine steps. -/
def engineSteps : Nat → State → State
  | 0, s => s
  | n + 1, s => engineSteps n (engineStep s)

/-- `wait_idle` (R99): the host reads `STATUS` until bit 0 reads 0. `gaps` says how many engine steps fall before each
read, which no rule bounds (R172); none is a host still waiting after the last of them. -/
def waitIdle : List Nat → State → Option State
  | [], _ => none
  | n :: gaps, s =>
    let s1 := engineSteps n s
    let v := memRead s1 (regOffset .status)
    if v.getLsbD 0 then waitIdle gaps (answerRead v s1) else some (answerRead v s1)

end Sys2Proof.Machine
end

