-- ==== Sys2Proof/Safety.lean ====
section
/-! DEFINITION. The terms the statements use: runs of steps, the outcomes a run may end in, candidates of a search, and
the invariant of the machine. -/

namespace Sys2Proof.Machine

open Sys2Proof

/-- `k` steps, stopping at the first fault or refusal. -/
def runSteps : Nat → State → Result
  | 0, s => .next s
  | k + 1, s =>
    match step s with
    | .next t => runSteps k t
    | .fault f => .fault f
    | .refused r => .refused r

/-- Every host access still to come is one the block answers (R62). -/
def AgendaClean (s : State) : Prop := ∀ a, Event.access a ∈ s.agenda → a.wellFormed = true

/-- The candidate nonce `n` meets the target (R144): `MEETS(LZC(D(n)), TARGET)`. -/
def meetsTarget (seed : Bytes32) (target : BitVec 8) (n : Word64) : Bool :=
  meets (lzc (candidateDigest seed n)) target

/-- `c_i = (S + i) mod 2^64`, the i-th candidate of a search started with `NONCE = S` (R167). -/
def candidate (start : Word64) (i : Nat) : Word64 := start + BitVec.ofNat 64 i

/-- What `ERRINFO` can hold: nothing, or one of the four errors with the fields R200 gives it. -/
def ErrInfoLegal (e : ErrInfo) : Prop :=
  e = ErrInfo.zero ∨
  (e.code = 1 ∧ e.exp = 32 ∧ e.act.toNat < 256 ∧ e.act ≠ 32) ∨
  (e.code = 2 ∧ e.exp = 1 ∧ e.act = 0) ∨
  (e.code = 3 ∧ e.exp ≠ 0 ∧ e.act.toNat < e.exp.toNat) ∨
  (e.code = 4 ∧ e.exp = 0 ∧ e.act.toNat < 256)

/-- The result group is a proof: its count is its digest's, and it meets its target, a valid one (R141, R164). -/
def ProofValid (r : ResultGroup) : Prop :=
  r.lzc.toNat = lzc r.digest ∧ 1 ≤ r.tgt.toNat ∧ r.tgt.toNat ≤ r.lzc.toNat

/-- What holds after reset and is kept by every step. -/
structure StateInv (s : State) : Prop where
  /-- A running operation has a valid target (R162). -/
  busy_target : s.mode ≠ .idle → s.target ≠ 0
  /-- A running operation has a seed of 32 bytes (R162). -/
  busy_seed : s.mode ≠ .idle → s.seedCnt = 32
  /-- A pending abort has an operation to end (R22, R194). -/
  abort_busy : s.abortReq = true → s.mode ≠ .idle
  /-- While an operation runs, no outcome is reported (R161, R241). -/
  busy_flags : s.mode ≠ .idle → s.status.done = false ∧ s.status.err = false ∧ s.status.hinonce = false ∧
    s.status.aborted = false ∧ s.errInfo = ErrInfo.zero
  /-- A verification has wrapped no nonce and, until its step, hashed nothing (R182). -/
  verify_fresh : s.mode = .verify → s.status.nwrap = false ∧ s.iters = 0
  /-- `ERRINFO` holds nothing that R200 does not list. -/
  err_legal : ErrInfoLegal s.errInfo
  /-- The result group is as reset left it, or a proof (R38). -/
  result_valid : s.result = ResultGroup.zero ∨ ProofValid s.result
  /-- `DONE` says that the result group is a proof (R38). -/
  done_valid : s.status.done = true → ProofValid s.result
  /-- No operation both succeeds and is aborted (R170). -/
  done_not_aborted : ¬ (s.status.done = true ∧ s.status.aborted = true)
  /-- `HINONCE` says that the result's nonce is over the threshold (R165). -/
  hinonce_high : s.status.hinonce = true → s64 s.result.nonce > Config.diagThreshold
  /-- The bytes of the seed buffer that no push has reached are 0 (R110, R111). -/
  seed_tail : ∀ k (h : k < 32), s.seedCnt.toNat ≤ k → s.seed[k] = 0

end Sys2Proof.Machine
end

