-- ==== Sys2Proof/Certificates/Slice0/Obligations.lean ====
section
/-! DEFINITION. The statements about the PWSE, from the numbered rules of spec/. -/

open Sys2Proof Sys2Proof.Machine

/-! ### Encoding -/

/-- R91, R92, R94, R95: a word decodes to a command exactly when it is that command's word, so decoding inverts encoding
and drops no bit. -/
def Obligations.DecodeIsTheInverseOfEncode : Prop :=
  ∀ (w : Word) (i : Instr), decode w = .ok i ↔ w = encode i

/-- R95: by the opcode byte and the reserved bits, as numbers; and there are 519 legal words. -/
def Obligations.DecodeIsTotalWith519LegalWords : Prop :=
  (∀ w : Word,
    let opc := w.toNat % 256
    let command : Option Instr :=
      if opc = 0x00 then some .nop else if opc = 0x01 then some .srst else if opc = 0x02 then some .abort
      else if opc = 0x10 then some .seedclr else if opc = 0x21 then some .settgtdef
      else if opc = 0x30 then some .search else if opc = 0x31 then some .verify else none
    match command with
    | some i => if w.toNat / 256 = 0 then decode w = .ok i else ∃ e, decode w = .error e
    | none =>
      if opc = 0x11 ∧ w.toNat / 65536 = 0 then decode w = .ok (.seedb (BitVec.ofNat 8 (w.toNat / 256)))
      else if opc = 0x20 ∧ w.toNat / 65536 = 0 then decode w = .ok (.settgt (BitVec.ofNat 8 (w.toNat / 256)))
      else ∃ e, decode w = .error e) ∧
  ∃ legal : List Word, legal.Nodup ∧ legal.length = 7 + 2 * 256 ∧ ∀ w, w ∈ legal ↔ ∃ i, decode w = .ok i

/-- R94, R96: the words that decode are those of the opcode table's masks and patterns, and no word is of two rows. -/
def Obligations.LegalWordsAreTheOpcodeTables : Prop :=
  (∀ w : Word, (∃ i, decode w = .ok i) ↔ wordLegal w = true) ∧
  ∀ (w : Word) (r q : OpcodeRow), r ∈ opcodeTable → q ∈ opcodeTable → r.accepts w = true → q.accepts w = true → r = q

/-- R101: the encoding examples. -/
def Obligations.EncodingExamples : Prop :=
  encode (.seedb 0x3f) = 0x00003F11 ∧ encode (.settgt 22) = 0x00001620 ∧ encode (.settgt 0) = 0x00000020 ∧
  encode .settgtdef = 0x00000021 ∧ encode .search = 0x00000030 ∧ encode .verify = 0x00000031 ∧
  decode 0x00003F11 = .ok (.seedb 0x3f) ∧ decode 0x00001620 = .ok (.settgt 22) ∧
  decode 0x00000020 = .ok (.settgt 0) ∧ decode 0x00000021 = .ok .settgtdef ∧ decode 0x00000030 = .ok .search ∧
  decode 0x00000031 = .ok .verify ∧ (∃ e, decode 0x00000130 = .error e) ∧ (∃ e, decode 0x00000040 = .error e)

/-! ### The step and the delivery of commands -/

/-- R25, R60, R73: when the next event is the host's write of a word that decodes to `i`, the step is `exec` of `i` on
the state without that event. That the events stand in `agenda` is the model's choice (log entries 1, 2). -/
def Obligations.StepRunsTheWrittenCommand : Prop :=
  ∀ (s : State) (w : Word) (i : Instr) (rest : List Event),
    s.agenda = .access ⟨.w32, 0x08, .write w⟩ :: rest → decode w = .ok i →
      step s = exec i { s with agenda := rest }

/-- R21, R73, R231: what the step does with a host access, an engine event, a reset and an empty agenda. The model's
choices in it: the agenda, and that the engine steps once it is empty (log entry 1); that a platform reset keeps `rdata`
(log entry 4); that an engine event of an idle block changes nothing (log entry 18). -/
def Obligations.StepTakesEngineStepsAndResets : Prop :=
  (∀ s : State, s.agenda = [] → step s = .next (engineStep s)) ∧
  (∀ (s : State) (a : Access) (rest : List Event), s.agenda = .access a :: rest →
    step s = hostAccess a { s with agenda := rest }) ∧
  (∀ (s : State) (rest : List Event), s.agenda = .engine :: rest →
    step s = .next (engineStep { s with agenda := rest })) ∧
  (∀ (s : State) (rest : List Event), s.agenda = .reset :: rest →
    step s = .next { State.reset with agenda := rest, rdata := s.rdata }) ∧
  (∀ s : State, s.mode = .idle → engineStep s = s)

/-- R97: a host write of `CMD` delivers its word, and the order in which a delivered word is treated: the control
commands in any mode, then the busy drop (illegal words included), then IllegalCommand, then the command of an idle
block. -/
def Obligations.CommandDeliveryOrder : Prop :=
  ∀ (w : Word) (s : State),
    hostAccess ⟨.w32, 0x08, .write w⟩ s = executeCommand w s ∧
    (∀ i, decode w = .ok i → (i = .nop ∨ i = .srst ∨ i = .abort) → executeCommand w s = exec i s) ∧
    (∀ i, decode w = .ok i → ¬ (i = .nop ∨ i = .srst ∨ i = .abort) →
      executeCommand w s =
        if s.mode ≠ .idle then .next { s with status := { s.status with busyviol := true } } else exec i s) ∧
    ((∃ e, decode w = .error e) →
      executeCommand w s =
        if s.mode ≠ .idle then .next { s with status := { s.status with busyviol := true } }
        else .next { s with
          status := { s.status with err := true }
          errInfo := ⟨4, 0, BitVec.ofNat 9 (w.toNat % 256)⟩ })

/-- R207: a word that decodes to `Illegal`, written to `CMD` while idle, is reported with its opcode byte and has no
effect but the report. -/
def Obligations.IllegalCommandIsReported : Prop :=
  ∀ (s : State) (w : Word) (e : DecodeError), decode w = .error e → s.mode = .idle →
      hostAccess ⟨.w32, 0x08, .write w⟩ s = .next { s with
        status := { s.status with err := true }
        errInfo := ⟨4, 0, BitVec.ofNat 9 (w.toNat % 256)⟩ }

/-! ### The commands, with what each leaves unchanged -/

/-- R190: `NOP` is the zero word and changes nothing, in any mode; a word of its opcode with any other bit set is
illegal. -/
def Obligations.NopChangesNothing : Prop :=
  encode .nop = 0x00000000 ∧ (∀ s : State, exec .nop s = .next s) ∧
  ∀ w : Word, w.toNat % 256 = 0 → w ≠ 0 → ∃ e, decode w = .error e

/-- R193, with R192 and R230: `SRST` sets every architectural state to its reset value, in any mode, in its own step; a
hardware reset does the same. -/
def Obligations.SoftResetRestoresEveryResetValue : Prop :=
  ∀ s : State, ∃ t, exec .srst s = .next t ∧ performEvent .reset s = .next t ∧
    t.mode = .idle ∧ t.abortReq = false ∧ t.status = ⟨false, false, false, false, false, false⟩ ∧
    t.irqEn = ⟨false, false, false, false, false, false⟩ ∧ t.errInfo = ⟨0, 0, 0⟩ ∧ t.nonce = 0 ∧ t.target = 16 ∧
    t.seedCnt = 0 ∧ (∀ k (h : k < 32), t.seed[k] = 0) ∧ t.iters = 0 ∧ t.result.nonce = 0 ∧ t.result.tgt = 0 ∧
    t.result.lzc = 0 ∧ (∀ k (h : k < 32), t.result.digest[k] = 0)

/-- The model's choice (log entries 1, 4): a reset, by `SRST` or by the platform, is the block's, and leaves the events
still to come and the last read answer as they are. -/
def Obligations.ResetsKeepTheHostSide : Prop :=
  ∀ s : State, exec .srst s = .next { State.reset with agenda := s.agenda, rdata := s.rdata } ∧
    performEvent .reset s = .next { State.reset with agenda := s.agenda, rdata := s.rdata }

/-- R194: `ABORT` sets `ABORT_REQ` while an operation runs and does nothing while idle; everything else is unchanged. -/
def Obligations.AbortRequestsCancellation : Prop :=
  (∀ s : State, s.mode = .idle → exec .abort s = .next s) ∧
  (∀ s : State, s.mode ≠ .idle → exec .abort s = .next { s with abortReq := true })

/-- R110: an accepted `SEEDCLR` clears the 32 bytes and the count, and a busy block drops it; everything else is
unchanged. -/
def Obligations.SeedclrClearsTheSeed : Prop :=
  encode .seedclr = 0x00000010 ∧
  (∀ s : State, s.mode = .idle →
    exec .seedclr s = .next { s with seed := Vector.replicate 32 0x00, seedCnt := 0 }) ∧
  ∀ s : State, s.mode ≠ .idle → exec .seedclr s = .next { s with status := { s.status with busyviol := true } }

/-- R111: an accepted `SEEDB` stores its byte at the count if that is below 32 and counts it, saturating at 255;
everything else is unchanged. -/
def Obligations.SeedbPushesOneByte : Prop :=
  (∀ b : Byte, (encode (.seedb b)).toNat = b.toNat * 256 + 0x11) ∧
  ∀ (s : State) (b : Byte), s.mode = .idle →
    ∃ seed' cnt', exec (.seedb b) s = .next { s with seed := seed', seedCnt := cnt' } ∧
      cnt'.toNat = min 255 (s.seedCnt.toNat + 1) ∧
      ∀ k (h : k < 32), seed'[k] = if k = s.seedCnt.toNat then b else s.seed[k]

/-- R140: an accepted `SETTGT` of 1..255 writes `TARGET` and nothing else. -/
def Obligations.SettgtWritesAValidTarget : Prop :=
  ∀ (s : State) (b : Byte), s.mode = .idle → 1 ≤ b.toNat →
    exec (.settgt b) s = .next { s with target := b }

/-- R142: an accepted `SETTGTDEF` writes 16 to `TARGET` and nothing else, and a busy block drops it. -/
def Obligations.SettgtdefWritesThePreset : Prop :=
  encode .settgtdef = 0x00000021 ∧
  (∀ s : State, s.mode = .idle → exec .settgtdef s = .next { s with target := 16 }) ∧
  ∀ s : State, s.mode ≠ .idle → exec .settgtdef s = .next { s with status := { s.status with busyviol := true } }

/-- R160, R161: a `SEARCH` on an idle block with a valid target and 32 seed bytes is accepted: the flags but `BUSYVIOL`,
`ERRINFO`, `ITERS` and `ABORT_REQ` are cleared and `MODE` is `SEARCH`; everything else is unchanged. -/
def Obligations.SearchIsAccepted : Prop :=
  ∀ s : State, s.mode = .idle → s.target ≠ 0 → s.seedCnt = 32 →
    exec .search s = .next { s with
      mode := .search, abortReq := false, errInfo := ⟨0, 0, 0⟩, iters := 0
      status := ⟨false, false, false, false, s.status.busyviol, false⟩ }

/-- R180, R161: the same for `VERIFY`, with `MODE` `VERIFY`. -/
def Obligations.VerifyIsAccepted : Prop :=
  ∀ s : State, s.mode = .idle → s.target ≠ 0 → s.seedCnt = 32 →
    exec .verify s = .next { s with
      mode := .verify, abortReq := false, errInfo := ⟨0, 0, 0⟩, iters := 0
      status := ⟨false, false, false, false, s.status.busyviol, false⟩ }

/-- R205: `SETTGT 0` leaves no valid target and reports InvalidDifficulty; so does either operation with `TARGET = 0`,
whatever the seed count, and the block stays idle with nothing hashed; a valid `SETTGT` or `SETTGTDEF` mends it. -/
def Obligations.InvalidDifficultyIsReported : Prop :=
  (∀ s : State, s.mode = .idle →
    exec (.settgt 0) s = .next { s with
      target := 0, status := { s.status with err := true }, errInfo := ⟨2, 1, 0⟩ }) ∧
  (∀ (s : State) (i : Instr), (i = .search ∨ i = .verify) → s.mode = .idle → s.target = 0 →
    exec i s = .next { s with
      abortReq := false, errInfo := ⟨2, 1, 0⟩, iters := 0
      status := ⟨false, true, false, false, s.status.busyviol, false⟩ }) ∧
  ∀ (s : State) (i : Instr), (i = .settgtdef ∨ ∃ b, b ≠ 0 ∧ i = .settgt b) → s.mode = .idle →
    ∃ t, exec i s = .next t ∧ t.target ≠ 0

/-- R204: with a valid target and a seed count other than 32 both operations report SeedLengthMismatch with the count,
and the block stays idle. -/
def Obligations.OperationsNeed32SeedBytes : Prop :=
  ∀ (s : State) (i : Instr), (i = .search ∨ i = .verify) → s.mode = .idle → s.target ≠ 0 → s.seedCnt ≠ 32 →
    exec i s = .next { s with
      abortReq := false, errInfo := ⟨1, 32, BitVec.ofNat 9 s.seedCnt.toNat⟩, iters := 0
      status := ⟨false, true, false, false, s.status.busyviol, false⟩ }

/-- R240, on host write accesses: while busy every command word but those of `NOP`, `SRST` and `ABORT`, legal or
illegal, and every `NONCE` write does nothing but set `BUSYVIOL`; writes to `STATUS` and `IRQ_EN` are performed;
read-only and reserved offsets are ignored in every mode. -/
def Obligations.BusyBlockDropsWrites : Prop :=
  (∀ (s : State) (w : Word), s.mode ≠ .idle → w ≠ encode .nop → w ≠ encode .srst → w ≠ encode .abort →
    hostAccess ⟨.w32, 0x08, .write w⟩ s = .next { s with status := { s.status with busyviol := true } }) ∧
  (∀ (s : State) (off : BitVec 8) (v : Word), s.mode ≠ .idle → (off = 0x18 ∨ off = 0x1C) →
    hostAccess ⟨.w32, off, .write v⟩ s = .next { s with status := { s.status with busyviol := true } }) ∧
  (∀ (s : State) (v : Word), s.mode ≠ .idle →
    ∃ b, hostAccess ⟨.w32, 0x0C, .write v⟩ s = .next { s with status := b } ∧
    ∀ k, 1 ≤ k → k ≤ 6 →
      (memRead { s with status := b } 0x0C).getLsbD k = ((memRead s 0x0C).getLsbD k && !v.getLsbD k)) ∧
  (∀ (s : State) (v : Word), s.mode ≠ .idle →
    ∃ b, hostAccess ⟨.w32, 0x10, .write v⟩ s = .next { s with irqEn := b } ∧
    memRead { s with irqEn := b } 0x10 = v &&& 0x7E) ∧
  (∀ (s : State) (off : BitVec 8) (v : Word), off.toNat % 4 = 0 →
    ¬ (off = 0x08 ∨ off = 0x0C ∨ off = 0x10 ∨ off = 0x18 ∨ off = 0x1C) →
      hostAccess ⟨.w32, off, .write v⟩ s = .next s)

/-! ### The engine -/

/-- R163, R164, R165, R166: one search iteration. -/
def Obligations.SearchIteration : Prop :=
  ∀ s : State, s.mode = .search →
    (s.abortReq = true → engineStep s = { s with
      abortReq := false, mode := .idle, status := { s.status with aborted := true } }) ∧
    (s.abortReq = false →
      let n := s.nonce + 1
      let d := doubleHash (s.seed.toList ++ le64 n)
      let wrapped : StatusBits :=
        { s.status with nwrap := s.status.nwrap || decide (s.nonce = 0x7FFFFFFFFFFFFFFF) }
      (s.target.toNat ≤ lzc d → engineStep s = { s with
        nonce := n, iters := s.iters + 1, mode := .idle
        result := ⟨n, s.target, BitVec.ofNat 9 (lzc d), d⟩
        status := { wrapped with done := true, hinonce := s.status.hinonce || decide (500000 < n.toInt) } }) ∧
      (lzc d < s.target.toNat → engineStep s = { s with nonce := n, iters := s.iters + 1, status := wrapped }))

/-- R182: the verification step. -/
def Obligations.VerificationStep : Prop :=
  ∀ s : State, s.mode = .verify →
    (s.abortReq = true → engineStep s = { s with
      abortReq := false, mode := .idle, status := { s.status with aborted := true } }) ∧
    (s.abortReq = false →
      let d := doubleHash (s.seed.toList ++ le64 s.nonce)
      (s.target.toNat ≤ lzc d → engineStep s = { s with
        iters := 1, mode := .idle, result := ⟨s.nonce, s.target, BitVec.ofNat 9 (lzc d), d⟩
        status := { s.status with done := true } }) ∧
      (lzc d < s.target.toNat → engineStep s = { s with
        iters := 1, mode := .idle, errInfo := ⟨3, s.target, BitVec.ofNat 9 (lzc d)⟩
        status := { s.status with err := true } }))

/-- R183: a verification that is not aborted succeeds exactly when the candidate's count reaches the target, and else
reports the count, which is then at most 254. -/
def Obligations.VerificationIsConsistent : Prop :=
  ∀ s : State, s.mode = .idle → s.target ≠ 0 → s.seedCnt = 32 →
    ∃ u, exec .verify s = .next u ∧ u.mode = .verify ∧
      let z := lzc (doubleHash (s.seed.toList ++ le64 s.nonce))
      let t := engineStep u
      t.mode = .idle ∧ (t.status.done = true ↔ s.target.toNat ≤ z) ∧ (t.status.err = true ↔ z < s.target.toNat) ∧
      (z < s.target.toNat → t.errInfo.code = 3 ∧ t.errInfo.exp = s.target ∧ t.errInfo.act.toNat = z ∧ z ≤ 254)

/-- R167: a search accepted with `NONCE = S` whose least meeting candidate is the `k`-th is still running with
`NONCE = S + j` after `j < k` iterations, and after exactly `k` has that candidate as its result. The run is one with no
host step after the command. The model's choices in it: the command stands in the agenda (log entry 2), the engine steps
once the agenda is empty (log entry 1), and `rdata` is kept (log entry 4). -/
def Obligations.SearchFindsTheFirstCandidate : Prop :=
  ∀ (s : State) (k : Nat), s.mode = .idle → s.target ≠ 0 → s.seedCnt = 32 →
    s.agenda = [.access ⟨.w32, 0x08, .write 0x00000030⟩] →
    1 ≤ k → meetsTarget s.seed s.target (candidate s.nonce k) = true →
    (∀ i, 1 ≤ i → i < k → meetsTarget s.seed s.target (candidate s.nonce i) = false) →
    (∀ j, j < k → ∃ u, runSteps (j + 1) s = .next u ∧ u.mode = .search ∧ u.nonce = candidate s.nonce j ∧
      u.result = s.result) ∧
    ∃ t, runSteps (k + 1) s = .next t ∧ t.mode = .idle ∧
      t.nonce = candidate s.nonce k ∧ t.iters = BitVec.ofNat 64 k ∧
      t.result.nonce = candidate s.nonce k ∧ t.result.tgt = s.target ∧
      t.result.digest = candidateDigest s.seed (candidate s.nonce k) ∧
      t.result.lzc.toNat = lzc (candidateDigest s.seed (candidate s.nonce k)) ∧
      t.status.done = true ∧ t.status.err = false ∧ t.status.aborted = false ∧
      (t.status.nwrap = true ↔ ∃ i, 1 ≤ i ∧ i ≤ k ∧ candidate s.nonce i = 0x8000000000000000) ∧
      (t.status.hinonce = true ↔ 500000 < (candidate s.nonce k).toInt) ∧
      t.status.busyviol = s.status.busyviol ∧ t.errInfo = ⟨0, 0, 0⟩ ∧ t.target = s.target ∧ t.seed = s.seed ∧
      t.seedCnt = s.seedCnt ∧ t.irqEn = s.irqEn ∧ t.rdata = s.rdata

/-- R168, R171, R166: while no candidate meets the target the search goes on, one candidate a step, with no cap, no
fault and no change but of `NONCE`, `ITERS` and `NWRAP`, which is set exactly if it was or some candidate is -2^63. That
the run with an empty agenda takes an engine step every time is the model's choice (log entries 1, 13). -/
def Obligations.SearchGoesOnWithoutACap : Prop :=
  ∀ (s : State) (k : Nat), s.mode = .search → s.abortReq = false → s.agenda = [] →
    (∀ i, 1 ≤ i → i ≤ k → meetsTarget s.seed s.target (candidate s.nonce i) = false) →
    ∃ w : Bool, (w = true ↔ s.status.nwrap = true ∨
        ∃ i, 1 ≤ i ∧ i ≤ k ∧ candidate s.nonce i = 0x8000000000000000) ∧
      runSteps k s = .next { s with
        nonce := candidate s.nonce k, iters := s.iters + BitVec.ofNat 64 k
        status := { s.status with nwrap := w } }

/-- R169: after a search step that succeeds, a `VERIFY` of what it left, with the same target or any lower valid one,
succeeds and answers the same proof with that target. The lower target is put in place by a record update; that
`SETTGT` writes it is SettgtWritesAValidTarget. -/
def Obligations.FoundNonceVerifies : Prop :=
  ∀ (s : State) (target' : BitVec 8), s.mode = .search → s.seedCnt = 32 → s.abortReq = false →
    meetsTarget s.seed s.target (s.nonce + 1) = true → 1 ≤ target'.toNat → target'.toNat ≤ s.target.toNat →
    let found := engineStep s
    found.mode = .idle ∧ found.result.tgt = s.target ∧ found.result.nonce = found.nonce ∧
    ∃ u, exec .verify { found with target := target' } = .next u ∧
      (engineStep u).status.done = true ∧ (engineStep u).status.err = false ∧ (engineStep u).mode = .idle ∧
      (engineStep u).result = { found.result with tgt := target' }

/-- R194: a search aborted after `j` iterations and started again tries the same candidates in the same order as one
uninterrupted search: after `j + k` iterations in all, mode, nonce, result and outcome are those of the uninterrupted
one, and `ITERS` counts the `k` of the second start. That the two runs stand in the agenda is the model's choice (log
entry 1). -/
def Obligations.AbortedSearchResumes : Prop :=
  ∀ (s : State) (j k : Nat), s.mode = .idle → s.target ≠ 0 → s.seedCnt = 32 →
    (∀ i, 1 ≤ i → i < j + k → meetsTarget s.seed s.target (candidate s.nonce i) = false) → 1 ≤ k →
    let interrupted : List Event := cmdWrite (encode .search) :: List.replicate j .engine ++
      [cmdWrite (encode .abort), .engine, cmdWrite (encode .search)] ++ List.replicate k .engine
    let uninterrupted : List Event := cmdWrite (encode .search) :: List.replicate (j + k) .engine
    ∃ t u,
      runSteps (j + k + 4) { s with agenda := interrupted } = .next t ∧
      runSteps (j + k + 1) { s with agenda := uninterrupted } = .next u ∧
      t.mode = u.mode ∧ t.nonce = u.nonce ∧ t.result = u.result ∧ t.status.done = u.status.done ∧
      t.status.hinonce = u.status.hinonce ∧ t.status.aborted = false ∧
      t.iters = BitVec.ofNat 64 k ∧ u.iters = BitVec.ofNat 64 (j + k)

/-- R170: an engine step of a search raises no error, and every step that takes the block out of `SEARCH` ends in
success, abort or reset. -/
def Obligations.SearchHasNoErrorPath : Prop :=
  (∀ s : State, s.mode = .search →
    (engineStep s).status.err = s.status.err ∧ (engineStep s).errInfo = s.errInfo) ∧
  (∀ s t : State, step s = .next t → s.mode = .search → t.mode ≠ .search →
    t.mode = .idle ∧ (t.status.done = true ∨ t.status.aborted = true ∨
      t = { State.reset with agenda := t.agenda, rdata := t.rdata }))

/-- R66, R171, R240: a host access that does not fault and is not the write of `SRST` or `ABORT` leaves a running
operation as it is: mode, abort request, nonce, count, target, seed and result. -/
def Obligations.HostAccessesLeaveTheOperationAlone : Prop :=
  ∀ (s t : State) (a : Access), s.mode ≠ .idle → hostAccess a s = .next t →
    a ≠ ⟨.w32, 0x08, .write 0x00000001⟩ → a ≠ ⟨.w32, 0x08, .write 0x00000002⟩ →
    t.mode = s.mode ∧ t.abortReq = s.abortReq ∧ t.nonce = s.nonce ∧ t.iters = s.iters ∧ t.target = s.target ∧
    t.seed = s.seed ∧ t.seedCnt = s.seedCnt ∧ t.result = s.result ∧ t.errInfo = s.errInfo

/-- R242: a host that reads `NONCE_HI`, then after `a` engine steps `NONCE_LO`, then after `b` more `NONCE_HI` again,
and finds the two high halves equal, has a value that `NONCE` held, provided fewer than 2^32 changes of the high half
can fall between the two. -/
def Obligations.AgreeingHighHalvesMeanNoTearing : Prop :=
  ∀ (s : State) (a b : Nat), s.mode = .search →
    (s.nonce.toNat % 2 ^ 32 + a + b) / 2 ^ 32 < 2 ^ 32 →
    memRead (engineSteps (a + b) s) 0x1C = memRead s 0x1C →
    (memRead s 0x1C).toNat * 2 ^ 32 + (memRead (engineSteps a s) 0x18).toNat = (engineSteps a s).nonce.toNat

/-! ### Invariants -/

/-- Every step keeps the invariant (R22, R38, R161, R162, R200, R201). -/
def Obligations.EveryStepKeepsTheInvariant : Prop :=
  ∀ s t : State, StateInv s → step s = .next t → StateInv t

/-- The reset state meets the invariant. -/
def Obligations.ResetMeetsTheInvariant : Prop := StateInv State.reset

/-- R38: a step changes the result group only by the success of an operation, which sets `DONE` and ends it, or by a
reset. -/
def Obligations.OnlySuccessOrResetWritesTheResult : Prop :=
  ∀ s t : State, step s = .next t →
    t.result = s.result ∨ (s.mode ≠ .idle ∧ t.mode = .idle ∧ t.status.done = true ∧ t.result.tgt = s.target) ∨
    t = { State.reset with agenda := t.agenda, rdata := t.rdata }

/-- R143, R162: while an operation runs, no step but a reset changes the target, the seed or its count. -/
def Obligations.TargetAndSeedAreFixedWhileBusy : Prop :=
  ∀ s t : State, step s = .next t → s.mode ≠ .idle →
    (t.target = s.target ∧ t.seed = s.seed ∧ t.seedCnt = s.seedCnt) ∨
    t = { State.reset with agenda := t.agenda, rdata := t.rdata }

/-- R21: `MODE` leaves `IDLE` only by an accepted `SEARCH` or `VERIFY` of the same mode, and changes from any other mode
only to `IDLE`. -/
def Obligations.ModeChangesOnlyAtStartAndEnd : Prop :=
  ∀ s t : State, step s = .next t → t.mode ≠ s.mode →
    (s.mode = .idle ∧ ∃ rest, (t.mode = .search ∧ s.agenda = cmdWrite (encode .search) :: rest) ∨
      (t.mode = .verify ∧ s.agenda = cmdWrite (encode .verify) :: rest)) ∨
    (s.mode ≠ .idle ∧ t.mode = .idle)

/-- R62: a step faults exactly at a host access of another width or alignment, and is never refused. -/
def Obligations.OnlyBadAccessesFault : Prop :=
  (∀ s : State, (∃ f, step s = .fault f) ↔
    ∃ a rest, s.agenda = .access a :: rest ∧ (a.width ≠ .w32 ∨ a.off.toNat % 4 ≠ 0)) ∧
  ∀ (s : State) (r : Refusal), step s ≠ .refused r

/-- R62: a run over clean accesses never stops. -/
def Obligations.CleanRunsNeverStop : Prop :=
  ∀ (s : State) (k : Nat), AgendaClean s → ∃ t, runSteps k s = .next t

/-! ### The register window -/

/-- R63, R65: what a read of each offset returns, as a number, and that it changes nothing of the block. Where the
answer is left (`rdata`) is the model's choice (log entry 4). -/
def Obligations.ReadsReturnTheRegisters : Prop :=
  (∀ (s : State) (off : BitVec 8), off.toNat % 4 = 0 →
    hostAccess ⟨.w32, off, .read⟩ s = .next { s with rdata := some (memRead s off) }) ∧
  ∀ s : State,
    memRead s 0x00 = 0x50575345 ∧ memRead s 0x04 = 0x20100120 ∧ memRead s 0x08 = 0 ∧
    (memRead s 0x0C).toNat = (if s.mode = .idle then 0 else 1) + 2 * s.status.done.toNat + 4 * s.status.err.toNat +
      8 * s.status.hinonce.toNat + 16 * s.status.nwrap.toNat + 32 * s.status.busyviol.toNat +
      64 * s.status.aborted.toNat ∧
    (memRead s 0x10).toNat = 2 * s.irqEn.done.toNat + 4 * s.irqEn.err.toNat + 8 * s.irqEn.hinonce.toNat +
      16 * s.irqEn.nwrap.toNat + 32 * s.irqEn.busyviol.toNat + 64 * s.irqEn.aborted.toNat ∧
    (memRead s 0x14).toNat = s.errInfo.code.toNat + 2 ^ 8 * s.errInfo.exp.toNat + 2 ^ 16 * s.errInfo.act.toNat ∧
    (memRead s 0x18).toNat = s.nonce.toNat % 2 ^ 32 ∧ (memRead s 0x1C).toNat = s.nonce.toNat / 2 ^ 32 ∧
    (memRead s 0x20).toNat = s.target.toNat ∧ (memRead s 0x24).toNat = s.seedCnt.toNat ∧
    (memRead s 0x28).toNat = s.iters.toNat % 2 ^ 32 ∧ (memRead s 0x2C).toNat = s.iters.toNat / 2 ^ 32 ∧
    (memRead s 0x30).toNat = s.result.nonce.toNat % 2 ^ 32 ∧
    (memRead s 0x34).toNat = s.result.nonce.toNat / 2 ^ 32 ∧
    (memRead s 0x38).toNat = s.result.tgt.toNat + 2 ^ 16 * s.result.lzc.toNat ∧
    (∀ w (h : w < 8), (memRead s (BitVec.ofNat 8 (0x40 + 4 * w))).toNat =
      s.seed[4 * w].toNat + 2 ^ 8 * s.seed[4 * w + 1].toNat + 2 ^ 16 * s.seed[4 * w + 2].toNat +
        2 ^ 24 * s.seed[4 * w + 3].toNat) ∧
    (∀ w (h : w < 8), (memRead s (BitVec.ofNat 8 (0x60 + 4 * w))).toNat =
      s.result.digest[4 * w].toNat + 2 ^ 8 * s.result.digest[4 * w + 1].toNat +
        2 ^ 16 * s.result.digest[4 * w + 2].toNat + 2 ^ 24 * s.result.digest[4 * w + 3].toNat) ∧
    memRead s 0x3C = 0 ∧ ∀ off : BitVec 8, 0x80 ≤ off.toNat → memRead s off = 0

/-- R64, R30: a host write access is `memWrite` of its offset, and what that does at each offset; `{NONCE[63:32], v}`
and `{v, NONCE[31:0]}` as numbers. -/
def Obligations.WritesActOnTheRegisters : Prop :=
  ∀ (s : State) (v : Word),
    memWrite 0x08 v s = executeCommand v s ∧
    (∃ b, memWrite 0x0C v s = .next { s with status := b } ∧ ∀ k, k < 32 →
      (memRead { s with status := b } 0x0C).getLsbD k =
        ((memRead s 0x0C).getLsbD k && !(v.getLsbD k && decide (1 ≤ k ∧ k ≤ 6)))) ∧
    (∃ b, memWrite 0x10 v s = .next { s with irqEn := b } ∧ memRead { s with irqEn := b } 0x10 = v &&& 0x7E) ∧
    (∃ lo hi : Word64, lo.toNat = s.nonce.toNat / 2 ^ 32 * 2 ^ 32 + v.toNat ∧
      hi.toNat = v.toNat * 2 ^ 32 + s.nonce.toNat % 2 ^ 32 ∧
      memWrite 0x18 v s = .next (if s.mode = .idle then { s with nonce := lo }
        else { s with status := { s.status with busyviol := true } }) ∧
      memWrite 0x1C v s = .next (if s.mode = .idle then { s with nonce := hi }
        else { s with status := { s.status with busyviol := true } })) ∧
    (∀ off : BitVec 8, off.toNat % 4 = 0 → hostAccess ⟨.w32, off, .write v⟩ s = memWrite off v s) ∧
    ∀ off : BitVec 8, off.toNat % 4 = 0 →
      ¬ (off = 0x08 ∨ off = 0x0C ∨ off = 0x10 ∨ off = 0x18 ∨ off = 0x1C) → memWrite off v s = .next s

/-- R28: a write of `v` to `IRQ_EN` makes it read `v & 0x7E`, whether or not the block is busy, and changes nothing
else; it is 0 after reset. -/
def Obligations.IrqEnableKeepsBits1To6 : Prop :=
  (∀ (s : State) (v : Word), ∃ t, hostAccess ⟨.w32, 0x10, .write v⟩ s = .next t ∧
    memRead t 0x10 = v &&& 0x0000007E ∧ t = { s with irqEn := t.irqEn }) ∧
  memRead State.reset 0x10 = 0

/-- R27: `STATUS` bit 0 reads 1 exactly when `MODE` is not `IDLE`. -/
def Obligations.BusyReflectsMode : Prop :=
  ∀ s : State, (memRead s 0x0C).getLsbD 0 = true ↔ s.mode ≠ .idle

/-- R210: `irq` is 1 exactly when some bit 1..6 is set both in `STATUS` and in `IRQ_EN`, as a host reads them. -/
def Obligations.IrqIsTheOrOfEnabledFlags : Prop :=
  ∀ s : State, irq s = true ↔
    ∃ b, 1 ≤ b ∧ b ≤ 6 ∧ (memRead s 0x0C).getLsbD b = true ∧ (memRead s 0x10).getLsbD b = true

/-- R43, R232: what a host reads right after reset: `ID`, `CFG`, `TARGET` 16 and 0 everywhere else, with `irq` 0. -/
def Obligations.ReadsAfterReset : Prop :=
  memRead State.reset 0x00 = 0x50575345 ∧ memRead State.reset 0x04 = 0x20100120 ∧
  memRead State.reset 0x20 = 0x00000010 ∧ State.reset.mode = .idle ∧ State.reset.abortReq = false ∧
  irq State.reset = false ∧
  ∀ off : BitVec 8, off ≠ 0x00 → off ≠ 0x04 → off ≠ 0x20 → memRead State.reset off = 0

/-- R60: the host address `PWSE_BASE + off` selects offset `off`, whatever the base. That an address outside the 256
bytes selects nothing is the model's choice (log entry 5): its decoding is the platform's. -/
def Obligations.WindowDecodesItsOwnAddresses : Prop :=
  (∀ (off : BitVec 8) (w : AccessWidth) (k : AccessKind),
    accessAt (Config.pwseBase + off.toNat) w k = some ⟨w, off, k⟩) ∧
  ∀ (addr : Nat) (w : AccessWidth) (k : AccessKind),
    addr < Config.pwseBase ∨ Config.pwseBase + 256 ≤ addr → accessAt addr w k = none

/-- R74, R99: when `wait_idle` ends, however many engine steps fell between its reads, the block is idle and its last
answer has bit 0 clear. -/
def Obligations.WaitIdleEndsIdle : Prop :=
  ∀ (gaps : List Nat) (s t : State), waitIdle gaps s = some t →
    t.mode = .idle ∧ ∃ v, t.rdata = some v ∧ v.getLsbD 0 = false

/-! ### Seed, hasher, counter, comparator -/

/-- R112: `SEEDCLR` and 32 `SEEDB` on an idle block leave the 32 bytes in push order and the count 32; everything else
is unchanged. -/
def Obligations.SeedLoadKeepsPushOrder : Prop :=
  ∀ (s : State) (bytes : Bytes32), s.mode = .idle →
    s.agenda = cmdWrite (encode .seedclr) :: bytes.toList.map (fun b => cmdWrite (encode (.seedb b))) →
    runSteps 33 s = .next { s with seed := bytes, seedCnt := 32, agenda := [] }

/-- R99: a command statement assembles to one write of its word to `CMD`, which reaches the block as that write; an
operand outside 0 to 255 is an assembly error, never truncated. -/
def Obligations.CommandStatementsAssembleToOneWrite : Prop :=
  let write (w : Word) : HostOp := .memWrite (Config.pwseBase + 8) w
  (∀ n : Int,
    assemble (.seedb n) = (if 0 ≤ n ∧ n ≤ 255 then some [write (BitVec.ofNat 32 (n.toNat * 256 + 0x11))] else none) ∧
    assemble (.settgt n) =
      (if 0 ≤ n ∧ n ≤ 255 then some [write (BitVec.ofNat 32 (n.toNat * 256 + 0x20))] else none)) ∧
  assemble .nop = some [write 0x00] ∧ assemble .srst = some [write 0x01] ∧ assemble .abort = some [write 0x02] ∧
  assemble .seedclr = some [write 0x10] ∧ assemble .settgtdef = some [write 0x21] ∧
  assemble .search = some [write 0x30] ∧ assemble .verify = some [write 0x31] ∧
  ∀ w : Word, hostOpEvent (write w) = some (cmdWrite w)

/-- R100: an `ldseed` of 64 digits expands to `SEEDCLR` and 32 `SEEDB`, byte k being the k-th pair of digits, the first
digit of a pair high; of another number of digits it is an assembly error. -/
def Obligations.LdseedExpansion : Prop :=
  ∀ digits : List (BitVec 4),
    (digits.length ≠ 64 → assemble (.ldseed digits) = none) ∧
    (digits.length = 64 → ∃ bytes : Bytes32,
      (∀ k (h : k < 32), some (bytes[k].toNat) =
        (digits[2 * k]?).bind (fun hi => (digits[2 * k + 1]?).map (fun lo => hi.toNat * 16 + lo.toNat))) ∧
      assemble (.ldseed digits) =
        some (asmCmd .seedclr :: bytes.toList.map (fun b => asmCmd (.seedb b))))

/-- R120, R121: the candidate's message is the 32 seed bytes, then the nonce's 8 bytes, least significant first. -/
def Obligations.CandidateMessageLayout : Prop :=
  ∀ (seed : Bytes32) (n : Word64),
    (candidateMsg seed n).length = 40 ∧ (∀ k (h : k < 32), (candidateMsg seed n)[k]? = some seed[k]) ∧
    ∀ j, j < 8 → (candidateMsg seed n)[32 + j]? = some (BitVec.ofNat 8 (n.toNat / 256 ^ j))

/-- R125: the padding is 0x80, the least number of zero bytes that fills whole blocks, and the 8-byte big-endian bit
length; the block's two messages take 15 and 23 zero bytes and one block each. -/
def Obligations.PaddingFillsWholeBlocks : Prop :=
  (∀ m : Bytes, m.length < 2 ^ 61 → ∃ k tail, shaPad m = m ++ [0x80] ++ List.replicate k 0x00 ++ tail ∧
    (m.length + 1 + k + 8) % 64 = 0 ∧ (∀ j, (m.length + 1 + j + 8) % 64 = 0 → k ≤ j) ∧
    tail.length = 8 ∧ tail.foldl (fun a b => 256 * a + b.toNat) 0 = 8 * m.length) ∧
  (∀ m : Bytes, m.length = 40 → shaPad m =
    m ++ [0x80] ++ List.replicate 15 0x00 ++ [0, 0, 0, 0, 0, 0, 0x01, 0x40]) ∧
  (∀ m : Bytes, m.length = 32 → shaPad m =
    m ++ [0x80] ++ List.replicate 23 0x00 ++ [0, 0, 0, 0, 0, 0, 0x01, 0x00])

/-- R128: the check value SHA-256("abc"). -/
def Obligations.Sha256OfAbc : Prop :=
  (sha256 [0x61, 0x62, 0x63]).toList =
    [0xba, 0x78, 0x16, 0xbf, 0x8f, 0x01, 0xcf, 0xea, 0x41, 0x41, 0x40, 0xde, 0x5d, 0xae, 0x22, 0x23,
     0xb0, 0x03, 0x61, 0xa3, 0x96, 0x17, 0x7a, 0x9c, 0xb4, 0x10, 0xff, 0x61, 0xf2, 0x00, 0x15, 0xad]

/-- R152: with `X` the digest as a 256-bit big-endian number, the count is 256 if `X = 0` and `255 - floor(log2 X)`
otherwise. -/
def Obligations.LzcCountsTheBigNumbersLeadingZeros : Prop :=
  ∀ d : Bytes32,
    let x := d.toList.foldl (fun acc b => 256 * acc + b.toNat) 0
    lzc d = if x = 0 then 256 else 255 - Nat.log2 x

/-- R151: the full table of `clz8`. -/
def Obligations.Clz8Table : Prop :=
  ∀ b : Byte, clz8 b =
    if b = 0x00 then 8 else if b = 0x01 then 7 else if b.toNat ≤ 0x03 then 6 else if b.toNat ≤ 0x07 then 5
    else if b.toNat ≤ 0x0F then 4 else if b.toNat ≤ 0x1F then 3 else if b.toNat ≤ 0x3F then 2
    else if b.toNat ≤ 0x7F then 1 else 0

/-- R150, R153: the count is at most 256, and 256 exactly for the all-zero digest; it is 8 times the place of the first
non-zero byte and that byte's `clz8`, whatever the bytes after it. -/
def Obligations.LzcIsDecidedByTheFirstNonZeroByte : Prop :=
  (∀ d : Bytes32, lzc d ≤ 256 ∧ (lzc d = 256 ↔ ∀ k (h : k < 32), d[k] = 0)) ∧
  ∀ (d : Bytes32) (k : Nat) (h : k < 32), d[k] ≠ 0 → (∀ j (hj : j < k), d[j] = 0) → lzc d = 8 * k + clz8 d[k]

/-- R145: 256 meets every valid target, 0 meets none, and meeting a target is meeting every lower one. -/
def Obligations.ComparatorIsMonotone : Prop :=
  (∀ t : BitVec 8, 1 ≤ t.toNat → meets 256 t = true ∧ meets 0 t = false) ∧
  ∀ (z : Nat) (t t' : BitVec 8), meets z t = true → t'.toNat ≤ t.toNat → meets z t' = true
end

