-- ==== Sys2Proof/Laws/Flags.lean ====
section
/-! SUPPORT. The bits of the status words, and the halves of a 64-bit register. -/

namespace Sys2Proof.Machine

open Sys2Proof

theorem statusBitsWord_bit0 (b : StatusBits) (x : Bool) : (statusBitsWord b x).getLsbD 0 = x := by
  rcases b with ⟨_ | _, _ | _, _ | _, _ | _, _ | _, _ | _⟩ <;> cases x <;> decide

theorem statusBitsWord_bit1 (b : StatusBits) (x : Bool) : (statusBitsWord b x).getLsbD 1 = b.done := by
  rcases b with ⟨_ | _, _ | _, _ | _, _ | _, _ | _, _ | _⟩ <;> cases x <;> decide

theorem statusBitsWord_bit2 (b : StatusBits) (x : Bool) : (statusBitsWord b x).getLsbD 2 = b.err := by
  rcases b with ⟨_ | _, _ | _, _ | _, _ | _, _ | _, _ | _⟩ <;> cases x <;> decide

theorem statusBitsWord_bit3 (b : StatusBits) (x : Bool) : (statusBitsWord b x).getLsbD 3 = b.hinonce := by
  rcases b with ⟨_ | _, _ | _, _ | _, _ | _, _ | _, _ | _⟩ <;> cases x <;> decide

theorem statusBitsWord_bit4 (b : StatusBits) (x : Bool) : (statusBitsWord b x).getLsbD 4 = b.nwrap := by
  rcases b with ⟨_ | _, _ | _, _ | _, _ | _, _ | _, _ | _⟩ <;> cases x <;> decide

theorem statusBitsWord_bit5 (b : StatusBits) (x : Bool) : (statusBitsWord b x).getLsbD 5 = b.busyviol := by
  rcases b with ⟨_ | _, _ | _, _ | _, _ | _, _ | _, _ | _⟩ <;> cases x <;> decide

theorem statusBitsWord_bit6 (b : StatusBits) (x : Bool) : (statusBitsWord b x).getLsbD 6 = b.aborted := by
  rcases b with ⟨_ | _, _ | _, _ | _, _ | _, _ | _, _ | _⟩ <;> cases x <;> decide

theorem loHalf_toNat (x : Word64) : (loHalf x).toNat = x.toNat % 2 ^ 32 := by
  simp [loHalf]

theorem hiHalf_toNat (x : Word64) : (hiHalf x).toNat = x.toNat / 2 ^ 32 := by
  have := x.isLt
  simp [hiHalf, Nat.shiftRight_eq_div_pow]; omega

/-- Two words side by side, as a number. -/
theorem append32_toNat (hi lo : Word) : (hi ++ lo : Word64).toNat = hi.toNat * 2 ^ 32 + lo.toNat := by
  have h : BitVec.toNat (w := 32 + 32) (hi ++ lo) = hi.toNat * 2 ^ 32 + lo.toNat := by
    rw [BitVec.toNat_append, ← Nat.shiftLeft_add_eq_or_of_lt lo.isLt, Nat.shiftLeft_eq]
  exact h

theorem withLo_toNat (x : Word64) (v : Word) :
    (withLo x v).toNat = x.toNat / 2 ^ 32 * 2 ^ 32 + v.toNat := by
  rw [withLo, append32_toNat, hiHalf_toNat]

theorem withHi_toNat (x : Word64) (v : Word) :
    (withHi x v).toNat = v.toNat * 2 ^ 32 + x.toNat % 2 ^ 32 := by
  rw [withHi, append32_toNat, loHalf_toNat]

end Sys2Proof.Machine
end

