-- ==== Sys2Proof/Laws/Hasher.lean ====
section
/-! SUPPORT. Lengths and blocks of the hash's messages. -/

namespace Sys2Proof.Machine

open Sys2Proof

theorem be64_length (x : Nat) : (be64 x).length = 8 := rfl

theorem le64_length (n : Word64) : (le64 n).length = 8 := rfl

theorem shaPad_length (m : Bytes) : (shaPad m).length = m.length + 1 + padZeros m.length + 8 := by
  simp [shaPad, be64_length]; omega

theorem candidateMsg_length (seed : Bytes32) (n : Word64) : (candidateMsg seed n).length = 40 := by
  simp [candidateMsg, le64_length]

/-- Splitting takes as many blocks as asked. -/
theorem shaBlocks_length (n : Nat) (bs : Bytes) : (shaBlocks n bs).length = n := by
  induction n generalizing bs with
  | zero => rfl
  | succ n ih => simp [shaBlocks, ih]

end Sys2Proof.Machine
end

