-- ==== Sys2Proof/Laws/Lzc.lean ====
section
/-! SUPPORT. Bounds and cases of the leading-zero counter and the comparator. -/

namespace Sys2Proof.Machine

open Sys2Proof

theorem clz8_le (b : Byte) : clz8 b ≤ 8 := by
  unfold clz8; split <;> omega

theorem clz8_le_seven {b : Byte} (h : b ≠ 0) : clz8 b ≤ 7 := by
  unfold clz8; rw [if_neg h]; omega

theorem lzcFrom_le (i : Nat) (bs : Bytes) : lzcFrom i bs ≤ 8 * (i + bs.length) := by
  induction bs generalizing i with
  | nil => simp [lzcFrom]
  | cons b rest ih =>
    unfold lzcFrom
    split
    · have := ih (i + 1); simp only [List.length_cons]; omega
    · have := clz8_le b; simp only [List.length_cons]; omega

/-- The count of a digest is at most 256 (R150). -/
theorem lzc_le (d : Bytes32) : lzc d ≤ 256 := by
  have := lzcFrom_le 0 d.toList
  simpa [lzc] using this

/-- The count survives the 9 bits of `RES_LZC` and `ERRINFO.ACT` (R150). -/
theorem lzc_toNat (d : Bytes32) : (BitVec.ofNat 9 (lzc d)).toNat = lzc d := by
  have := lzc_le d
  rw [BitVec.toNat_ofNat]
  exact Nat.mod_eq_of_lt (by omega)

theorem meets_iff (z : Nat) (t : BitVec 8) : meets z t = true ↔ t.toNat ≤ z := by simp [meets]

theorem meets_false_iff (z : Nat) (t : BitVec 8) : meets z t = false ↔ z < t.toNat := by simp [meets]

end Sys2Proof.Machine
end

