-- ==== Sys2Proof/Laws/State.lean ====
section
/-! SUPPORT. One lemma per field per named update of Machine/Ops.lean: what the update does to that field. No later proof
unfolds a record update. -/

namespace Sys2Proof.Machine

open Sys2Proof

/-! `raise`: the error report (R203). -/

@[simp] theorem raise_mode (e : PwseError) (s : State) :
    (raise e s).mode = s.mode := rfl
@[simp] theorem raise_abortReq (e : PwseError) (s : State) :
    (raise e s).abortReq = s.abortReq := rfl
@[simp] theorem raise_status (e : PwseError) (s : State) :
    (raise e s).status = { s.status with err := true } := rfl
@[simp] theorem raise_irqEn (e : PwseError) (s : State) :
    (raise e s).irqEn = s.irqEn := rfl
@[simp] theorem raise_errInfo (e : PwseError) (s : State) :
    (raise e s).errInfo = errInfoOf e := rfl
@[simp] theorem raise_nonce (e : PwseError) (s : State) :
    (raise e s).nonce = s.nonce := rfl
@[simp] theorem raise_target (e : PwseError) (s : State) :
    (raise e s).target = s.target := rfl
@[simp] theorem raise_seedCnt (e : PwseError) (s : State) :
    (raise e s).seedCnt = s.seedCnt := rfl
@[simp] theorem raise_seed (e : PwseError) (s : State) :
    (raise e s).seed = s.seed := rfl
@[simp] theorem raise_iters (e : PwseError) (s : State) :
    (raise e s).iters = s.iters := rfl
@[simp] theorem raise_result (e : PwseError) (s : State) :
    (raise e s).result = s.result := rfl
@[simp] theorem raise_agenda (e : PwseError) (s : State) :
    (raise e s).agenda = s.agenda := rfl
@[simp] theorem raise_rdata (e : PwseError) (s : State) :
    (raise e s).rdata = s.rdata := rfl

/-! `ackStatus`: the write-1-to-clear of `STATUS` (R64). -/

@[simp] theorem ackStatus_mode (v : Word) (s : State) :
    (ackStatus v s).mode = s.mode := rfl
@[simp] theorem ackStatus_abortReq (v : Word) (s : State) :
    (ackStatus v s).abortReq = s.abortReq := rfl
@[simp] theorem ackStatus_status (v : Word) (s : State) :
    (ackStatus v s).status = clearOnes s.status v := rfl
@[simp] theorem ackStatus_irqEn (v : Word) (s : State) :
    (ackStatus v s).irqEn = s.irqEn := rfl
@[simp] theorem ackStatus_errInfo (v : Word) (s : State) :
    (ackStatus v s).errInfo = s.errInfo := rfl
@[simp] theorem ackStatus_nonce (v : Word) (s : State) :
    (ackStatus v s).nonce = s.nonce := rfl
@[simp] theorem ackStatus_target (v : Word) (s : State) :
    (ackStatus v s).target = s.target := rfl
@[simp] theorem ackStatus_seedCnt (v : Word) (s : State) :
    (ackStatus v s).seedCnt = s.seedCnt := rfl
@[simp] theorem ackStatus_seed (v : Word) (s : State) :
    (ackStatus v s).seed = s.seed := rfl
@[simp] theorem ackStatus_iters (v : Word) (s : State) :
    (ackStatus v s).iters = s.iters := rfl
@[simp] theorem ackStatus_result (v : Word) (s : State) :
    (ackStatus v s).result = s.result := rfl
@[simp] theorem ackStatus_agenda (v : Word) (s : State) :
    (ackStatus v s).agenda = s.agenda := rfl
@[simp] theorem ackStatus_rdata (v : Word) (s : State) :
    (ackStatus v s).rdata = s.rdata := rfl

/-! `dropBusy`: a dropped write (R240). -/

@[simp] theorem dropBusy_mode (s : State) :
    (dropBusy s).mode = s.mode := rfl
@[simp] theorem dropBusy_abortReq (s : State) :
    (dropBusy s).abortReq = s.abortReq := rfl
@[simp] theorem dropBusy_status (s : State) :
    (dropBusy s).status = { s.status with busyviol := true } := rfl
@[simp] theorem dropBusy_irqEn (s : State) :
    (dropBusy s).irqEn = s.irqEn := rfl
@[simp] theorem dropBusy_errInfo (s : State) :
    (dropBusy s).errInfo = s.errInfo := rfl
@[simp] theorem dropBusy_nonce (s : State) :
    (dropBusy s).nonce = s.nonce := rfl
@[simp] theorem dropBusy_target (s : State) :
    (dropBusy s).target = s.target := rfl
@[simp] theorem dropBusy_seedCnt (s : State) :
    (dropBusy s).seedCnt = s.seedCnt := rfl
@[simp] theorem dropBusy_seed (s : State) :
    (dropBusy s).seed = s.seed := rfl
@[simp] theorem dropBusy_iters (s : State) :
    (dropBusy s).iters = s.iters := rfl
@[simp] theorem dropBusy_result (s : State) :
    (dropBusy s).result = s.result := rfl
@[simp] theorem dropBusy_agenda (s : State) :
    (dropBusy s).agenda = s.agenda := rfl
@[simp] theorem dropBusy_rdata (s : State) :
    (dropBusy s).rdata = s.rdata := rfl

/-! `applyResetValues`: reset (R230). -/

@[simp] theorem applyResetValues_mode (s : State) :
    (applyResetValues s).mode = .idle := rfl
@[simp] theorem applyResetValues_abortReq (s : State) :
    (applyResetValues s).abortReq = false := rfl
@[simp] theorem applyResetValues_status (s : State) :
    (applyResetValues s).status = StatusBits.zero := rfl
@[simp] theorem applyResetValues_irqEn (s : State) :
    (applyResetValues s).irqEn = StatusBits.zero := rfl
@[simp] theorem applyResetValues_errInfo (s : State) :
    (applyResetValues s).errInfo = ErrInfo.zero := rfl
@[simp] theorem applyResetValues_nonce (s : State) :
    (applyResetValues s).nonce = 0 := rfl
@[simp] theorem applyResetValues_target (s : State) :
    (applyResetValues s).target = Config.defaultTarget := rfl
@[simp] theorem applyResetValues_seedCnt (s : State) :
    (applyResetValues s).seedCnt = 0 := rfl
@[simp] theorem applyResetValues_seed (s : State) :
    (applyResetValues s).seed = Vector.replicate 32 0 := rfl
@[simp] theorem applyResetValues_iters (s : State) :
    (applyResetValues s).iters = 0 := rfl
@[simp] theorem applyResetValues_result (s : State) :
    (applyResetValues s).result = ResultGroup.zero := rfl
@[simp] theorem applyResetValues_agenda (s : State) :
    (applyResetValues s).agenda = s.agenda := rfl
@[simp] theorem applyResetValues_rdata (s : State) :
    (applyResetValues s).rdata = s.rdata := rfl

/-! `beginOperation`: the start of an operation (R161). -/

@[simp] theorem beginOperation_mode (s : State) :
    (beginOperation s).mode = s.mode := rfl
@[simp] theorem beginOperation_abortReq (s : State) :
    (beginOperation s).abortReq = false := rfl
@[simp] theorem beginOperation_status (s : State) :
    (beginOperation s).status = { StatusBits.zero with busyviol := s.status.busyviol } := rfl
@[simp] theorem beginOperation_irqEn (s : State) :
    (beginOperation s).irqEn = s.irqEn := rfl
@[simp] theorem beginOperation_errInfo (s : State) :
    (beginOperation s).errInfo = ErrInfo.zero := rfl
@[simp] theorem beginOperation_nonce (s : State) :
    (beginOperation s).nonce = s.nonce := rfl
@[simp] theorem beginOperation_target (s : State) :
    (beginOperation s).target = s.target := rfl
@[simp] theorem beginOperation_seedCnt (s : State) :
    (beginOperation s).seedCnt = s.seedCnt := rfl
@[simp] theorem beginOperation_seed (s : State) :
    (beginOperation s).seed = s.seed := rfl
@[simp] theorem beginOperation_iters (s : State) :
    (beginOperation s).iters = 0 := rfl
@[simp] theorem beginOperation_result (s : State) :
    (beginOperation s).result = s.result := rfl
@[simp] theorem beginOperation_agenda (s : State) :
    (beginOperation s).agenda = s.agenda := rfl
@[simp] theorem beginOperation_rdata (s : State) :
    (beginOperation s).rdata = s.rdata := rfl

/-! `setMode`: `MODE <- m` (R13). -/

@[simp] theorem setMode_mode (m : Mode) (s : State) :
    (setMode m s).mode = m := rfl
@[simp] theorem setMode_abortReq (m : Mode) (s : State) :
    (setMode m s).abortReq = s.abortReq := rfl
@[simp] theorem setMode_status (m : Mode) (s : State) :
    (setMode m s).status = s.status := rfl
@[simp] theorem setMode_irqEn (m : Mode) (s : State) :
    (setMode m s).irqEn = s.irqEn := rfl
@[simp] theorem setMode_errInfo (m : Mode) (s : State) :
    (setMode m s).errInfo = s.errInfo := rfl
@[simp] theorem setMode_nonce (m : Mode) (s : State) :
    (setMode m s).nonce = s.nonce := rfl
@[simp] theorem setMode_target (m : Mode) (s : State) :
    (setMode m s).target = s.target := rfl
@[simp] theorem setMode_seedCnt (m : Mode) (s : State) :
    (setMode m s).seedCnt = s.seedCnt := rfl
@[simp] theorem setMode_seed (m : Mode) (s : State) :
    (setMode m s).seed = s.seed := rfl
@[simp] theorem setMode_iters (m : Mode) (s : State) :
    (setMode m s).iters = s.iters := rfl
@[simp] theorem setMode_result (m : Mode) (s : State) :
    (setMode m s).result = s.result := rfl
@[simp] theorem setMode_agenda (m : Mode) (s : State) :
    (setMode m s).agenda = s.agenda := rfl
@[simp] theorem setMode_rdata (m : Mode) (s : State) :
    (setMode m s).rdata = s.rdata := rfl

/-! `requestAbort`: `ABORT_REQ <- 1` (R194). -/

@[simp] theorem requestAbort_mode (s : State) :
    (requestAbort s).mode = s.mode := rfl
@[simp] theorem requestAbort_abortReq (s : State) :
    (requestAbort s).abortReq = true := rfl
@[simp] theorem requestAbort_status (s : State) :
    (requestAbort s).status = s.status := rfl
@[simp] theorem requestAbort_irqEn (s : State) :
    (requestAbort s).irqEn = s.irqEn := rfl
@[simp] theorem requestAbort_errInfo (s : State) :
    (requestAbort s).errInfo = s.errInfo := rfl
@[simp] theorem requestAbort_nonce (s : State) :
    (requestAbort s).nonce = s.nonce := rfl
@[simp] theorem requestAbort_target (s : State) :
    (requestAbort s).target = s.target := rfl
@[simp] theorem requestAbort_seedCnt (s : State) :
    (requestAbort s).seedCnt = s.seedCnt := rfl
@[simp] theorem requestAbort_seed (s : State) :
    (requestAbort s).seed = s.seed := rfl
@[simp] theorem requestAbort_iters (s : State) :
    (requestAbort s).iters = s.iters := rfl
@[simp] theorem requestAbort_result (s : State) :
    (requestAbort s).result = s.result := rfl
@[simp] theorem requestAbort_agenda (s : State) :
    (requestAbort s).agenda = s.agenda := rfl
@[simp] theorem requestAbort_rdata (s : State) :
    (requestAbort s).rdata = s.rdata := rfl

/-! `takeAbort`: a pending abort taken (R163, R182). -/

@[simp] theorem takeAbort_mode (s : State) :
    (takeAbort s).mode = .idle := rfl
@[simp] theorem takeAbort_abortReq (s : State) :
    (takeAbort s).abortReq = false := rfl
@[simp] theorem takeAbort_status (s : State) :
    (takeAbort s).status = { s.status with aborted := true } := rfl
@[simp] theorem takeAbort_irqEn (s : State) :
    (takeAbort s).irqEn = s.irqEn := rfl
@[simp] theorem takeAbort_errInfo (s : State) :
    (takeAbort s).errInfo = s.errInfo := rfl
@[simp] theorem takeAbort_nonce (s : State) :
    (takeAbort s).nonce = s.nonce := rfl
@[simp] theorem takeAbort_target (s : State) :
    (takeAbort s).target = s.target := rfl
@[simp] theorem takeAbort_seedCnt (s : State) :
    (takeAbort s).seedCnt = s.seedCnt := rfl
@[simp] theorem takeAbort_seed (s : State) :
    (takeAbort s).seed = s.seed := rfl
@[simp] theorem takeAbort_iters (s : State) :
    (takeAbort s).iters = s.iters := rfl
@[simp] theorem takeAbort_result (s : State) :
    (takeAbort s).result = s.result := rfl
@[simp] theorem takeAbort_agenda (s : State) :
    (takeAbort s).agenda = s.agenda := rfl
@[simp] theorem takeAbort_rdata (s : State) :
    (takeAbort s).rdata = s.rdata := rfl

/-! `setTarget`: `TARGET <- t` (R140, R142). -/

@[simp] theorem setTarget_mode (t : BitVec 8) (s : State) :
    (setTarget t s).mode = s.mode := rfl
@[simp] theorem setTarget_abortReq (t : BitVec 8) (s : State) :
    (setTarget t s).abortReq = s.abortReq := rfl
@[simp] theorem setTarget_status (t : BitVec 8) (s : State) :
    (setTarget t s).status = s.status := rfl
@[simp] theorem setTarget_irqEn (t : BitVec 8) (s : State) :
    (setTarget t s).irqEn = s.irqEn := rfl
@[simp] theorem setTarget_errInfo (t : BitVec 8) (s : State) :
    (setTarget t s).errInfo = s.errInfo := rfl
@[simp] theorem setTarget_nonce (t : BitVec 8) (s : State) :
    (setTarget t s).nonce = s.nonce := rfl
@[simp] theorem setTarget_target (t : BitVec 8) (s : State) :
    (setTarget t s).target = t := rfl
@[simp] theorem setTarget_seedCnt (t : BitVec 8) (s : State) :
    (setTarget t s).seedCnt = s.seedCnt := rfl
@[simp] theorem setTarget_seed (t : BitVec 8) (s : State) :
    (setTarget t s).seed = s.seed := rfl
@[simp] theorem setTarget_iters (t : BitVec 8) (s : State) :
    (setTarget t s).iters = s.iters := rfl
@[simp] theorem setTarget_result (t : BitVec 8) (s : State) :
    (setTarget t s).result = s.result := rfl
@[simp] theorem setTarget_agenda (t : BitVec 8) (s : State) :
    (setTarget t s).agenda = s.agenda := rfl
@[simp] theorem setTarget_rdata (t : BitVec 8) (s : State) :
    (setTarget t s).rdata = s.rdata := rfl

/-! `clearSeed`: the seed cleared (R110). -/

@[simp] theorem clearSeed_mode (s : State) :
    (clearSeed s).mode = s.mode := rfl
@[simp] theorem clearSeed_abortReq (s : State) :
    (clearSeed s).abortReq = s.abortReq := rfl
@[simp] theorem clearSeed_status (s : State) :
    (clearSeed s).status = s.status := rfl
@[simp] theorem clearSeed_irqEn (s : State) :
    (clearSeed s).irqEn = s.irqEn := rfl
@[simp] theorem clearSeed_errInfo (s : State) :
    (clearSeed s).errInfo = s.errInfo := rfl
@[simp] theorem clearSeed_nonce (s : State) :
    (clearSeed s).nonce = s.nonce := rfl
@[simp] theorem clearSeed_target (s : State) :
    (clearSeed s).target = s.target := rfl
@[simp] theorem clearSeed_seedCnt (s : State) :
    (clearSeed s).seedCnt = 0 := rfl
@[simp] theorem clearSeed_seed (s : State) :
    (clearSeed s).seed = Vector.replicate 32 0 := rfl
@[simp] theorem clearSeed_iters (s : State) :
    (clearSeed s).iters = s.iters := rfl
@[simp] theorem clearSeed_result (s : State) :
    (clearSeed s).result = s.result := rfl
@[simp] theorem clearSeed_agenda (s : State) :
    (clearSeed s).agenda = s.agenda := rfl
@[simp] theorem clearSeed_rdata (s : State) :
    (clearSeed s).rdata = s.rdata := rfl

/-! `pushSeed`: a seed byte pushed (R111). -/

@[simp] theorem pushSeed_mode (b : Byte) (s : State) :
    (pushSeed b s).mode = s.mode := rfl
@[simp] theorem pushSeed_abortReq (b : Byte) (s : State) :
    (pushSeed b s).abortReq = s.abortReq := rfl
@[simp] theorem pushSeed_status (b : Byte) (s : State) :
    (pushSeed b s).status = s.status := rfl
@[simp] theorem pushSeed_irqEn (b : Byte) (s : State) :
    (pushSeed b s).irqEn = s.irqEn := rfl
@[simp] theorem pushSeed_errInfo (b : Byte) (s : State) :
    (pushSeed b s).errInfo = s.errInfo := rfl
@[simp] theorem pushSeed_nonce (b : Byte) (s : State) :
    (pushSeed b s).nonce = s.nonce := rfl
@[simp] theorem pushSeed_target (b : Byte) (s : State) :
    (pushSeed b s).target = s.target := rfl
@[simp] theorem pushSeed_seedCnt (b : Byte) (s : State) :
    (pushSeed b s).seedCnt = if s.seedCnt < Config.seedCntMax then s.seedCnt + 1 else s.seedCnt := rfl
@[simp] theorem pushSeed_seed (b : Byte) (s : State) :
    (pushSeed b s).seed = if s.seedCnt.toNat < 32 then s.seed.setIfInBounds s.seedCnt.toNat b else s.seed := rfl
@[simp] theorem pushSeed_iters (b : Byte) (s : State) :
    (pushSeed b s).iters = s.iters := rfl
@[simp] theorem pushSeed_result (b : Byte) (s : State) :
    (pushSeed b s).result = s.result := rfl
@[simp] theorem pushSeed_agenda (b : Byte) (s : State) :
    (pushSeed b s).agenda = s.agenda := rfl
@[simp] theorem pushSeed_rdata (b : Byte) (s : State) :
    (pushSeed b s).rdata = s.rdata := rfl

/-! `setIrqEn`: the `IRQ_EN` write (R28). -/

@[simp] theorem setIrqEn_mode (v : Word) (s : State) :
    (setIrqEn v s).mode = s.mode := rfl
@[simp] theorem setIrqEn_abortReq (v : Word) (s : State) :
    (setIrqEn v s).abortReq = s.abortReq := rfl
@[simp] theorem setIrqEn_status (v : Word) (s : State) :
    (setIrqEn v s).status = s.status := rfl
@[simp] theorem setIrqEn_irqEn (v : Word) (s : State) :
    (setIrqEn v s).irqEn = statusBitsOf v := rfl
@[simp] theorem setIrqEn_errInfo (v : Word) (s : State) :
    (setIrqEn v s).errInfo = s.errInfo := rfl
@[simp] theorem setIrqEn_nonce (v : Word) (s : State) :
    (setIrqEn v s).nonce = s.nonce := rfl
@[simp] theorem setIrqEn_target (v : Word) (s : State) :
    (setIrqEn v s).target = s.target := rfl
@[simp] theorem setIrqEn_seedCnt (v : Word) (s : State) :
    (setIrqEn v s).seedCnt = s.seedCnt := rfl
@[simp] theorem setIrqEn_seed (v : Word) (s : State) :
    (setIrqEn v s).seed = s.seed := rfl
@[simp] theorem setIrqEn_iters (v : Word) (s : State) :
    (setIrqEn v s).iters = s.iters := rfl
@[simp] theorem setIrqEn_result (v : Word) (s : State) :
    (setIrqEn v s).result = s.result := rfl
@[simp] theorem setIrqEn_agenda (v : Word) (s : State) :
    (setIrqEn v s).agenda = s.agenda := rfl
@[simp] theorem setIrqEn_rdata (v : Word) (s : State) :
    (setIrqEn v s).rdata = s.rdata := rfl

/-! `setNonce`: `NONCE <- n` (R30). -/

@[simp] theorem setNonce_mode (n : Word64) (s : State) :
    (setNonce n s).mode = s.mode := rfl
@[simp] theorem setNonce_abortReq (n : Word64) (s : State) :
    (setNonce n s).abortReq = s.abortReq := rfl
@[simp] theorem setNonce_status (n : Word64) (s : State) :
    (setNonce n s).status = s.status := rfl
@[simp] theorem setNonce_irqEn (n : Word64) (s : State) :
    (setNonce n s).irqEn = s.irqEn := rfl
@[simp] theorem setNonce_errInfo (n : Word64) (s : State) :
    (setNonce n s).errInfo = s.errInfo := rfl
@[simp] theorem setNonce_nonce (n : Word64) (s : State) :
    (setNonce n s).nonce = n := rfl
@[simp] theorem setNonce_target (n : Word64) (s : State) :
    (setNonce n s).target = s.target := rfl
@[simp] theorem setNonce_seedCnt (n : Word64) (s : State) :
    (setNonce n s).seedCnt = s.seedCnt := rfl
@[simp] theorem setNonce_seed (n : Word64) (s : State) :
    (setNonce n s).seed = s.seed := rfl
@[simp] theorem setNonce_iters (n : Word64) (s : State) :
    (setNonce n s).iters = s.iters := rfl
@[simp] theorem setNonce_result (n : Word64) (s : State) :
    (setNonce n s).result = s.result := rfl
@[simp] theorem setNonce_agenda (n : Word64) (s : State) :
    (setNonce n s).agenda = s.agenda := rfl
@[simp] theorem setNonce_rdata (n : Word64) (s : State) :
    (setNonce n s).rdata = s.rdata := rfl

/-! `captureResult`: the result capture (R164). -/

@[simp] theorem captureResult_mode (n : Word64) (t : BitVec 8) (z : Nat) (d : Bytes32) (s : State) :
    (captureResult n t z d s).mode = s.mode := rfl
@[simp] theorem captureResult_abortReq (n : Word64) (t : BitVec 8) (z : Nat) (d : Bytes32) (s : State) :
    (captureResult n t z d s).abortReq = s.abortReq := rfl
@[simp] theorem captureResult_status (n : Word64) (t : BitVec 8) (z : Nat) (d : Bytes32) (s : State) :
    (captureResult n t z d s).status = s.status := rfl
@[simp] theorem captureResult_irqEn (n : Word64) (t : BitVec 8) (z : Nat) (d : Bytes32) (s : State) :
    (captureResult n t z d s).irqEn = s.irqEn := rfl
@[simp] theorem captureResult_errInfo (n : Word64) (t : BitVec 8) (z : Nat) (d : Bytes32) (s : State) :
    (captureResult n t z d s).errInfo = s.errInfo := rfl
@[simp] theorem captureResult_nonce (n : Word64) (t : BitVec 8) (z : Nat) (d : Bytes32) (s : State) :
    (captureResult n t z d s).nonce = s.nonce := rfl
@[simp] theorem captureResult_target (n : Word64) (t : BitVec 8) (z : Nat) (d : Bytes32) (s : State) :
    (captureResult n t z d s).target = s.target := rfl
@[simp] theorem captureResult_seedCnt (n : Word64) (t : BitVec 8) (z : Nat) (d : Bytes32) (s : State) :
    (captureResult n t z d s).seedCnt = s.seedCnt := rfl
@[simp] theorem captureResult_seed (n : Word64) (t : BitVec 8) (z : Nat) (d : Bytes32) (s : State) :
    (captureResult n t z d s).seed = s.seed := rfl
@[simp] theorem captureResult_iters (n : Word64) (t : BitVec 8) (z : Nat) (d : Bytes32) (s : State) :
    (captureResult n t z d s).iters = s.iters := rfl
@[simp] theorem captureResult_result (n : Word64) (t : BitVec 8) (z : Nat) (d : Bytes32) (s : State) :
    (captureResult n t z d s).result = ⟨n, t, BitVec.ofNat 9 z, d⟩ := rfl
@[simp] theorem captureResult_agenda (n : Word64) (t : BitVec 8) (z : Nat) (d : Bytes32) (s : State) :
    (captureResult n t z d s).agenda = s.agenda := rfl
@[simp] theorem captureResult_rdata (n : Word64) (t : BitVec 8) (z : Nat) (d : Bytes32) (s : State) :
    (captureResult n t z d s).rdata = s.rdata := rfl

/-! `setDone`: success reported (R163, R182). -/

@[simp] theorem setDone_mode (hi : Bool) (s : State) :
    (setDone hi s).mode = s.mode := rfl
@[simp] theorem setDone_abortReq (hi : Bool) (s : State) :
    (setDone hi s).abortReq = s.abortReq := rfl
@[simp] theorem setDone_status (hi : Bool) (s : State) :
    (setDone hi s).status = { s.status with done := true, hinonce := s.status.hinonce || hi } := rfl
@[simp] theorem setDone_irqEn (hi : Bool) (s : State) :
    (setDone hi s).irqEn = s.irqEn := rfl
@[simp] theorem setDone_errInfo (hi : Bool) (s : State) :
    (setDone hi s).errInfo = s.errInfo := rfl
@[simp] theorem setDone_nonce (hi : Bool) (s : State) :
    (setDone hi s).nonce = s.nonce := rfl
@[simp] theorem setDone_target (hi : Bool) (s : State) :
    (setDone hi s).target = s.target := rfl
@[simp] theorem setDone_seedCnt (hi : Bool) (s : State) :
    (setDone hi s).seedCnt = s.seedCnt := rfl
@[simp] theorem setDone_seed (hi : Bool) (s : State) :
    (setDone hi s).seed = s.seed := rfl
@[simp] theorem setDone_iters (hi : Bool) (s : State) :
    (setDone hi s).iters = s.iters := rfl
@[simp] theorem setDone_result (hi : Bool) (s : State) :
    (setDone hi s).result = s.result := rfl
@[simp] theorem setDone_agenda (hi : Bool) (s : State) :
    (setDone hi s).agenda = s.agenda := rfl
@[simp] theorem setDone_rdata (hi : Bool) (s : State) :
    (setDone hi s).rdata = s.rdata := rfl

/-! `setIters`: `ITERS <- n` (R163, R182). -/

@[simp] theorem setIters_mode (n : Word64) (s : State) :
    (setIters n s).mode = s.mode := rfl
@[simp] theorem setIters_abortReq (n : Word64) (s : State) :
    (setIters n s).abortReq = s.abortReq := rfl
@[simp] theorem setIters_status (n : Word64) (s : State) :
    (setIters n s).status = s.status := rfl
@[simp] theorem setIters_irqEn (n : Word64) (s : State) :
    (setIters n s).irqEn = s.irqEn := rfl
@[simp] theorem setIters_errInfo (n : Word64) (s : State) :
    (setIters n s).errInfo = s.errInfo := rfl
@[simp] theorem setIters_nonce (n : Word64) (s : State) :
    (setIters n s).nonce = s.nonce := rfl
@[simp] theorem setIters_target (n : Word64) (s : State) :
    (setIters n s).target = s.target := rfl
@[simp] theorem setIters_seedCnt (n : Word64) (s : State) :
    (setIters n s).seedCnt = s.seedCnt := rfl
@[simp] theorem setIters_seed (n : Word64) (s : State) :
    (setIters n s).seed = s.seed := rfl
@[simp] theorem setIters_iters (n : Word64) (s : State) :
    (setIters n s).iters = n := rfl
@[simp] theorem setIters_result (n : Word64) (s : State) :
    (setIters n s).result = s.result := rfl
@[simp] theorem setIters_agenda (n : Word64) (s : State) :
    (setIters n s).agenda = s.agenda := rfl
@[simp] theorem setIters_rdata (n : Word64) (s : State) :
    (setIters n s).rdata = s.rdata := rfl

/-! `advanceNonce`: the nonce iterator (R163, R166). -/

@[simp] theorem advanceNonce_mode (s : State) :
    (advanceNonce s).mode = s.mode := rfl
@[simp] theorem advanceNonce_abortReq (s : State) :
    (advanceNonce s).abortReq = s.abortReq := rfl
@[simp] theorem advanceNonce_status (s : State) :
    (advanceNonce s).status = { s.status with nwrap := s.status.nwrap || decide (s.nonce = maxSignedNonce) } := rfl
@[simp] theorem advanceNonce_irqEn (s : State) :
    (advanceNonce s).irqEn = s.irqEn := rfl
@[simp] theorem advanceNonce_errInfo (s : State) :
    (advanceNonce s).errInfo = s.errInfo := rfl
@[simp] theorem advanceNonce_nonce (s : State) :
    (advanceNonce s).nonce = s.nonce + 1 := rfl
@[simp] theorem advanceNonce_target (s : State) :
    (advanceNonce s).target = s.target := rfl
@[simp] theorem advanceNonce_seedCnt (s : State) :
    (advanceNonce s).seedCnt = s.seedCnt := rfl
@[simp] theorem advanceNonce_seed (s : State) :
    (advanceNonce s).seed = s.seed := rfl
@[simp] theorem advanceNonce_iters (s : State) :
    (advanceNonce s).iters = s.iters := rfl
@[simp] theorem advanceNonce_result (s : State) :
    (advanceNonce s).result = s.result := rfl
@[simp] theorem advanceNonce_agenda (s : State) :
    (advanceNonce s).agenda = s.agenda := rfl
@[simp] theorem advanceNonce_rdata (s : State) :
    (advanceNonce s).rdata = s.rdata := rfl

/-! `answerRead`: a read answered (R63). -/

@[simp] theorem answerRead_mode (v : Word) (s : State) :
    (answerRead v s).mode = s.mode := rfl
@[simp] theorem answerRead_abortReq (v : Word) (s : State) :
    (answerRead v s).abortReq = s.abortReq := rfl
@[simp] theorem answerRead_status (v : Word) (s : State) :
    (answerRead v s).status = s.status := rfl
@[simp] theorem answerRead_irqEn (v : Word) (s : State) :
    (answerRead v s).irqEn = s.irqEn := rfl
@[simp] theorem answerRead_errInfo (v : Word) (s : State) :
    (answerRead v s).errInfo = s.errInfo := rfl
@[simp] theorem answerRead_nonce (v : Word) (s : State) :
    (answerRead v s).nonce = s.nonce := rfl
@[simp] theorem answerRead_target (v : Word) (s : State) :
    (answerRead v s).target = s.target := rfl
@[simp] theorem answerRead_seedCnt (v : Word) (s : State) :
    (answerRead v s).seedCnt = s.seedCnt := rfl
@[simp] theorem answerRead_seed (v : Word) (s : State) :
    (answerRead v s).seed = s.seed := rfl
@[simp] theorem answerRead_iters (v : Word) (s : State) :
    (answerRead v s).iters = s.iters := rfl
@[simp] theorem answerRead_result (v : Word) (s : State) :
    (answerRead v s).result = s.result := rfl
@[simp] theorem answerRead_agenda (v : Word) (s : State) :
    (answerRead v s).agenda = s.agenda := rfl
@[simp] theorem answerRead_rdata (v : Word) (s : State) :
    (answerRead v s).rdata = some v := rfl

end Sys2Proof.Machine
end

