-- ==== Sys2Proof/Laws/Ops.lean ====
section
/-! SUPPORT. What each shared operation can do, said once: the busy rule, the acceptance of an operation, the commands,
the engine's steps. -/

namespace Sys2Proof.Machine

open Sys2Proof

theorem whenIdle_of_idle {f : State → State} {s : State} (h : s.mode = .idle) : whenIdle f s = .next (f s) := by
  simp [whenIdle, h]

theorem whenIdle_of_busy {f : State → State} {s : State} (h : s.mode ≠ .idle) :
    whenIdle f s = .next (dropBusy s) := by
  simp [whenIdle, h]

/-- A command that only an idle block performs is performed, or dropped, and never stops. -/
theorem whenIdle_cases {f : State → State} {s t : State} (h : whenIdle f s = .next t) :
    (s.mode = .idle ∧ t = f s) ∨ (s.mode ≠ .idle ∧ t = dropBusy s) := by
  by_cases hm : s.mode = .idle
  · rw [whenIdle_of_idle hm] at h; cases h; exact .inl ⟨hm, rfl⟩
  · rw [whenIdle_of_busy hm] at h; cases h; exact .inr ⟨hm, rfl⟩

/-- The acceptance of `SEARCH` or `VERIFY` refuses the target first, then the seed, and else starts the operation
(R208). -/
theorem startOperation_cases (m : Mode) (s : State) :
    (s.target = 0 ∧
      startOperation m s = raise (.invalidDifficulty Config.minTarget 0) (beginOperation s)) ∨
    (s.target ≠ 0 ∧ s.seedCnt ≠ Config.seedLen ∧
      startOperation m s = raise (.seedLengthMismatch Config.seedLen s.seedCnt) (beginOperation s)) ∨
    (s.target ≠ 0 ∧ s.seedCnt = Config.seedLen ∧ startOperation m s = setMode m (beginOperation s)) := by
  by_cases ht : s.target = 0
  · exact .inl ⟨ht, by simp [startOperation, ht]⟩
  · by_cases hc : s.seedCnt = Config.seedLen
    · exact .inr (.inr ⟨ht, hc, by unfold startOperation; rw [if_neg (by exact ht), if_neg (by simpa using hc)]⟩)
    · exact .inr (.inl ⟨ht, hc, by
        unfold startOperation; rw [if_neg (by exact ht), if_pos (by simpa using hc)]; rfl⟩)

/-- A target is constructed, or refused as under the minimum (R140). -/
theorem constructTarget_cases (b : Byte) (s : State) :
    (b < Config.minTarget ∧
      constructTarget b s = raise (.invalidDifficulty Config.minTarget b) (setTarget 0 s)) ∨
    (¬ b < Config.minTarget ∧ constructTarget b s = setTarget b s) := by
  by_cases h : b < Config.minTarget
  · exact .inl ⟨h, by simp [constructTarget, h]⟩
  · exact .inr ⟨h, by simp [constructTarget, h]⟩

/-- What an idle block does with a command (R97's `perform`). -/
def idlePerform : Instr → State → State
  | .nop, s => s
  | .srst, s => applyResetValues s
  | .abort, s => s
  | .seedclr, s => clearSeed s
  | .seedb b, s => pushSeed b s
  | .settgt b, s => constructTarget b s
  | .settgtdef, s => setTarget Config.defaultTarget s
  | .search, s => startOperation .search s
  | .verify, s => startOperation .verify s

/-- What a busy block does with a command: only the three control commands act (R97). -/
def busyPerform : Instr → State → State
  | .nop, s => s
  | .srst, s => applyResetValues s
  | .abort, s => requestAbort s
  | _, s => dropBusy s

theorem exec_idle (i : Instr) {s : State} (h : s.mode = .idle) : exec i s = .next (idlePerform i s) := by
  cases i <;> simp [exec, execNop, execSrst, execAbort, execSeedclr, execSeedb, execSettgt, execSettgtdef, execSearch,
    execVerify, whenIdle, idlePerform, h]

theorem exec_busy (i : Instr) {s : State} (h : s.mode ≠ .idle) : exec i s = .next (busyPerform i s) := by
  cases i <;> simp [exec, execNop, execSrst, execAbort, execSeedclr, execSeedb, execSettgt, execSettgtdef, execSearch,
    execVerify, whenIdle, busyPerform, h]

/-- No command stops the machine. -/
theorem exec_next (i : Instr) (s : State) : ∃ t, exec i s = .next t := by
  by_cases h : s.mode = .idle
  · exact ⟨_, exec_idle i h⟩
  · exact ⟨_, exec_busy i h⟩

/-- The state a search iteration hashes in: the nonce and the count are already the new ones (R163). -/
def hashing (s : State) : State := setIters (s.iters + 1) (advanceNonce s)

/-- The count of the candidate whose nonce the state holds. -/
def candidateCount (s : State) : Nat := lzc (candidateDigest s.seed s.nonce)

/-- The state with the result group of the candidate whose nonce it holds. -/
def captured (s : State) : State :=
  captureResult s.nonce s.target (candidateCount s) (candidateDigest s.seed s.nonce) s

/-- A search iteration takes a pending abort, or finds its candidate meets the target, or goes on (R163). -/
theorem searchStep_cases (s : State) :
    (s.abortReq = true ∧ searchStep s = takeAbort s) ∨
    (s.abortReq = false ∧ meets (candidateCount (hashing s)) s.target = true ∧
      searchStep s = setMode .idle
        (setDone (decide (s64 (s.nonce + 1) > Config.diagThreshold)) (captured (hashing s)))) ∨
    (s.abortReq = false ∧ meets (candidateCount (hashing s)) s.target = false ∧ searchStep s = hashing s) := by
  cases ha : s.abortReq
  · cases hm : meets (candidateCount (hashing s)) s.target
    · refine .inr (.inr ⟨rfl, rfl, ?_⟩)
      simp only [candidateCount, hashing, setIters_seed, setIters_nonce] at hm
      simp_all [searchStep, concludeSearch, hashing]
    · refine .inr (.inl ⟨rfl, rfl, ?_⟩)
      simp only [candidateCount, hashing, setIters_seed, setIters_nonce] at hm
      simp_all [searchStep, concludeSearch, hashing, captured, candidateCount]
  · exact .inl ⟨rfl, by simp [searchStep, ha]⟩

/-- The verification step takes a pending abort, or finds its candidate meets the target, or reports that it does not
(R182). -/
theorem verifyStep_cases (s : State) :
    (s.abortReq = true ∧ verifyStep s = takeAbort s) ∨
    (s.abortReq = false ∧ meets (candidateCount s) s.target = true ∧
      verifyStep s = setDone false (captured (setMode .idle (setIters 1 s)))) ∨
    (s.abortReq = false ∧ meets (candidateCount s) s.target = false ∧
      verifyStep s = raise (.insufficientLeadingZeros s.target (BitVec.ofNat 9 (candidateCount s)))
        (setMode .idle (setIters 1 s))) := by
  cases ha : s.abortReq
  · cases hm : meets (candidateCount s) s.target
    · refine .inr (.inr ⟨rfl, rfl, ?_⟩)
      simp only [candidateCount] at hm
      simp [verifyStep, ha, concludeVerify, hm, candidateCount]
    · refine .inr (.inl ⟨rfl, rfl, ?_⟩)
      simp only [candidateCount] at hm
      simp [verifyStep, ha, concludeVerify, hm, captured, candidateCount]
  · exact .inl ⟨rfl, by simp [verifyStep, ha]⟩

theorem engineStep_idle {s : State} (h : s.mode = .idle) : engineStep s = s := by simp [engineStep, h]

theorem engineStep_search {s : State} (h : s.mode = .search) : engineStep s = searchStep s := by
  simp [engineStep, h]

theorem engineStep_verify {s : State} (h : s.mode = .verify) : engineStep s = verifyStep s := by
  simp [engineStep, h]

end Sys2Proof.Machine
end

