-- ==== Sys2Proof/Laws/PerInstr.lean ====
section
/-! SUPPORT. Statements made once per command: the word a command encodes to is of a row of the opcode table (R94). -/

namespace Sys2Proof.Laws.EncodeLegal

open Sys2Proof

/-- The command's word is a legal one. -/
def Statement (i : Instr) : Prop := wordLegal (encode i) = true

theorem nop : Statement .nop := by unfold Statement; decide
theorem srst : Statement .srst := by unfold Statement; decide
theorem abort : Statement .abort := by unfold Statement; decide
theorem seedclr : Statement .seedclr := by unfold Statement; decide
theorem seedb (imm8 : Byte) : Statement (.seedb imm8) := by unfold Statement; revert imm8; decide
theorem settgt (imm8 : Byte) : Statement (.settgt imm8) := by unfold Statement; revert imm8; decide
theorem settgtdef : Statement .settgtdef := by unfold Statement; decide
theorem search : Statement .search := by unfold Statement; decide
theorem verify : Statement .verify := by unfold Statement; decide

end Sys2Proof.Laws.EncodeLegal
end

