-- ==== Sys2Proof/Laws/RegMap.lean ====
section
/-! SUPPORT. The register map: every register is found at its own offset, and nothing else is. -/

namespace Sys2Proof.Machine

open Sys2Proof

theorem regAt_regOffset (r : Reg) : regAt (regOffset r) = some r := by
  cases r with
  | seedW w => revert w; decide
  | resDigestW w => revert w; decide
  | _ => decide

/-- A register found at an offset has that offset. -/
theorem regOffset_of_regAt {off : BitVec 8} {r : Reg} (h : regAt off = some r) : regOffset r = off := by
  simpa using List.find?_some h

@[simp] theorem memRead_regOffset (s : State) (r : Reg) : memRead s (regOffset r) = readReg s r := by
  simp [memRead, regAt_regOffset]

theorem memRead_of_regAt_none {s : State} {off : BitVec 8} (h : regAt off = none) : memRead s off = 0 := by
  simp [memRead, h]

end Sys2Proof.Machine
end

