-- ==== Sys2Proof/Laws/Step.lean ====
section
/-! SUPPORT. What one step can do, said once, from the delivery of a command up to the step. -/

namespace Sys2Proof.Machine

open Sys2Proof

/-- A delivered command word is a command, performed or dropped, or is illegal, reported or dropped (R97). -/
theorem executeCommand_cases {w : Word} {s t : State} (h : executeCommand w s = .next t) :
    (∃ i, decode w = .ok i ∧ s.mode = .idle ∧ t = idlePerform i s) ∨
    (∃ i, decode w = .ok i ∧ s.mode ≠ .idle ∧ t = busyPerform i s) ∨
    (∃ e, decode w = .error e ∧ s.mode = .idle ∧ t = raise (.illegalCommand (opcOf w)) s) ∨
    (∃ e, decode w = .error e ∧ s.mode ≠ .idle ∧ t = dropBusy s) := by
  cases hd : decode w with
  | ok i =>
    simp only [executeCommand, hd] at h
    by_cases hm : s.mode = .idle
    · rw [exec_idle i hm] at h; cases h; exact .inl ⟨i, rfl, hm, rfl⟩
    · rw [exec_busy i hm] at h; cases h; exact .inr (.inl ⟨i, rfl, hm, rfl⟩)
  | error e =>
    simp only [executeCommand, hd] at h
    cases h
    by_cases hm : s.mode = .idle
    · exact .inr (.inr (.inl ⟨e, rfl, hm, by simp [illegalWord, hm]⟩))
    · exact .inr (.inr (.inr ⟨e, rfl, hm, by simp [illegalWord, hm]⟩))

theorem executeCommand_next (w : Word) (s : State) : ∃ t, executeCommand w s = .next t := by
  cases hd : decode w with
  | ok i => simpa [executeCommand, hd] using exec_next i s
  | error e => simp [executeCommand, hd]

theorem writeNonce_cases (n : Word64) (s : State) :
    (s.mode = .idle ∧ writeNonce n s = setNonce n s) ∨ (s.mode ≠ .idle ∧ writeNonce n s = dropBusy s) := by
  by_cases hm : s.mode = .idle
  · exact .inl ⟨hm, by simp [writeNonce, hm]⟩
  · exact .inr ⟨hm, by simp [writeNonce, hm]⟩

/-- What a write of the window can do (R64). -/
theorem memWrite_cases {off : BitVec 8} {v : Word} {s t : State} (h : memWrite off v s = .next t) :
    (off = regOffset .cmd ∧ executeCommand v s = .next t) ∨
    (off = regOffset .status ∧ t = ackStatus v s) ∨
    (off = regOffset .irqEn ∧ t = setIrqEn v s) ∨
    (off = regOffset .nonceLo ∧ t = writeNonce (withLo s.nonce v) s) ∨
    (off = regOffset .nonceHi ∧ t = writeNonce (withHi s.nonce v) s) ∨ t = s := by
  cases hr : regAt off with
  | none => simp only [memWrite, hr] at h; cases h; simp
  | some r =>
    have ho := regOffset_of_regAt hr
    subst ho
    simp only [memWrite, hr] at h
    cases r <;> simp only [writeReg] at h <;> first | exact .inl ⟨rfl, h⟩ | (cases h; simp)

theorem memWrite_next (off : BitVec 8) (v : Word) (s : State) : ∃ t, memWrite off v s = .next t := by
  cases hr : regAt off with
  | none => simp [memWrite, hr]
  | some r => cases r <;> simp [memWrite, hr, writeReg, executeCommand_next]

/-- An access the block answers. -/
theorem hostAccess_of_wellFormed {a : Access} {s : State} (h : a.wellFormed = true) :
    hostAccess a s = match a.kind with
      | .read => .next (answerRead (memRead s a.off) s)
      | .write v => memWrite a.off v s := by
  cases hk : a.kind <;> simp [hostAccess, h, hk]

theorem hostAccess_of_illFormed {a : Access} {s : State} (h : a.wellFormed = false) :
    hostAccess a s = .fault .busError := by
  simp [hostAccess, h]

/-- What an access can do (R62 to R64). -/
theorem hostAccess_cases {a : Access} {s t : State} (h : hostAccess a s = .next t) :
    a.wellFormed = true ∧
    ((a.kind = .read ∧ t = answerRead (memRead s a.off) s) ∨
      ∃ v, a.kind = .write v ∧ memWrite a.off v s = .next t) := by
  cases hw : a.wellFormed
  · rw [hostAccess_of_illFormed hw] at h; cases h
  · rw [hostAccess_of_wellFormed hw] at h
    refine ⟨rfl, ?_⟩
    cases hk : a.kind with
    | read => simp only [hk] at h; cases h; exact .inl ⟨rfl, rfl⟩
    | write v => simp only [hk] at h; exact .inr ⟨v, rfl, h⟩

/-- The host's write of a command word delivers that word (R25). -/
theorem performEvent_cmdWrite (w : Word) (s : State) : performEvent (cmdWrite w) s = executeCommand w s := by
  have h : (Access.mk .w32 (regOffset .cmd) (.write w)).wellFormed = true := by
    simp only [Access.wellFormed]; decide
  simp only [performEvent, cmdWrite, hostAccess_of_wellFormed h, memWrite, regAt_regOffset, writeReg]

theorem step_of_agenda_nil {s : State} (h : s.agenda = []) : step s = .next (engineStep s) := by
  simp [step, nextStep, h]

theorem step_of_agenda_cons {s : State} {e : Event} {rest : List Event} (h : s.agenda = e :: rest) :
    step s = performEvent e { s with agenda := rest } := by
  simp [step, nextStep, h]

/-- What one step can do: the engine's step, a reset, or a host access, each on a state whose agenda is shorter by the
event it took (R73). -/
theorem step_cases {s t : State} (h : step s = .next t) :
    (s.agenda = [] ∧ t = engineStep s) ∨
    (∃ rest, s.agenda = .engine :: rest ∧ t = engineStep { s with agenda := rest }) ∨
    (∃ rest, s.agenda = .reset :: rest ∧ t = applyResetValues { s with agenda := rest }) ∨
    (∃ a rest, s.agenda = .access a :: rest ∧ hostAccess a { s with agenda := rest } = .next t) := by
  cases ha : s.agenda with
  | nil => rw [step_of_agenda_nil ha] at h; cases h; exact .inl ⟨rfl, rfl⟩
  | cons e rest =>
    rw [step_of_agenda_cons ha] at h
    cases e with
    | engine => simp only [performEvent] at h; cases h; exact .inr (.inl ⟨rest, rfl, rfl⟩)
    | reset => simp only [performEvent] at h; cases h; exact .inr (.inr (.inl ⟨rest, rfl, rfl⟩))
    | access a => exact .inr (.inr (.inr ⟨a, rest, rfl, h⟩))

end Sys2Proof.Machine
end

