-- ==== Sys2Proof/Machine/AsmText.lean ====
section
/-! DEFINITION. The text of the host assembly language (30_encoding.md R99, R100): one statement a line, `;` before a
comment, mnemonics in either case, decimal and `0x` hexadecimal numbers. Text is a list of characters. -/

namespace Sys2Proof.Machine

open Sys2Proof

/-- The line without its comment (R99). -/
def dropComment (line : List Char) : List Char := line.takeWhile (fun c => c != ';')

/-- The tokens of a line, `word` being the token read so far, last character first. A comma is a token of its own. -/
def tokensFrom (word : List Char) : List Char → List (List Char)
  | [] => if word.isEmpty then [] else [word.reverse]
  | c :: rest =>
    let before := if word.isEmpty then [] else [word.reverse]
    if c == ' ' || c == '\t' || c == '\r' then before ++ tokensFrom [] rest
    else if c == ',' then before ++ [','] :: tokensFrom [] rest
    else tokensFrom (c :: word) rest

/-- The value of a decimal digit. -/
def decDigit (c : Char) : Option Nat :=
  if 48 ≤ c.toNat ∧ c.toNat ≤ 57 then some (c.toNat - 48) else none

/-- The value of a hexadecimal digit, in either case. -/
def hexDigit (c : Char) : Option Nat :=
  if 48 ≤ c.toNat ∧ c.toNat ≤ 57 then some (c.toNat - 48)
  else if 65 ≤ c.toNat ∧ c.toNat ≤ 70 then some (c.toNat - 55)
  else if 97 ≤ c.toNat ∧ c.toNat ≤ 102 then some (c.toNat - 87)
  else none

/-- Digits to a number, after those read before. -/
def digitsFrom (digit : Char → Option Nat) (radix : Nat) (acc : Nat) : List Char → Option Nat
  | [] => some acc
  | c :: rest =>
    match digit c with
    | some d => digitsFrom digit radix (radix * acc + d) rest
    | none => none

/-- A decimal or `0x` hexadecimal number of at least one digit (R99). -/
def unsignedNumber : List Char → Option Nat
  | '0' :: 'x' :: c :: rest => digitsFrom hexDigit 16 0 (c :: rest)
  | c :: rest => digitsFrom decDigit 10 0 (c :: rest)
  | [] => none

/-- A number with an optional minus sign (R100's `ldnonce` takes a signed one). -/
def signedNumber : List Char → Option Int
  | '-' :: rest => (unsignedNumber rest).map (fun n => -(n : Int))
  | w => (unsignedNumber w).map (fun n => (n : Int))

/-- The hexadecimal digits of `ldseed` (R100). -/
def hexDigits (w : List Char) : Option (List (BitVec 4)) :=
  w.mapM (fun c => (hexDigit c).map (BitVec.ofNat 4))

/-- The names of the registers that stand alone (R20), in the order of `plainRegs`. -/
def plainRegNames : List (List Char) :=
  [['I', 'D'], ['C', 'F', 'G'], ['C', 'M', 'D'], ['S', 'T', 'A', 'T', 'U', 'S'], ['I', 'R', 'Q', '_', 'E', 'N'],
   ['E', 'R', 'R', 'I', 'N', 'F', 'O'], ['N', 'O', 'N', 'C', 'E', '_', 'L', 'O'],
   ['N', 'O', 'N', 'C', 'E', '_', 'H', 'I'], ['T', 'A', 'R', 'G', 'E', 'T'],
   ['S', 'E', 'E', 'D', '_', 'C', 'N', 'T'], ['I', 'T', 'E', 'R', 'S', '_', 'L', 'O'],
   ['I', 'T', 'E', 'R', 'S', '_', 'H', 'I'], ['R', 'E', 'S', '_', 'N', 'O', 'N', 'C', 'E', '_', 'L', 'O'],
   ['R', 'E', 'S', '_', 'N', 'O', 'N', 'C', 'E', '_', 'H', 'I'], ['R', 'E', 'S', '_', 'I', 'N', 'F', 'O']]

/-- The word index that ends a buffer register's name: one digit 0 to 7 (R20). -/
def laneIndex : List Char → Option (Fin 8)
  | [c] => laneIndices.find? (fun w => c.toNat == 48 + w.val)
  | _ => none

/-- A register name of R20. -/
def regOfName : List Char → Option Reg
  | 'S' :: 'E' :: 'E' :: 'D' :: '_' :: 'W' :: w => (laneIndex w).map Reg.seedW
  | 'R' :: 'E' :: 'S' :: '_' :: 'D' :: 'I' :: 'G' :: 'E' :: 'S' :: 'T' :: '_' :: 'W' :: w =>
    (laneIndex w).map Reg.resDigestW
  | w => (plainRegNames.zip plainRegs).lookup w

/-- The statements that are one word, in small letters (R99, R100). -/
def bareStmts : List (List Char × AsmStmt) :=
  [(['n', 'o', 'p'], .nop), (['s', 'r', 's', 't'], .srst), (['a', 'b', 'o', 'r', 't'], .abort),
   (['s', 'e', 'e', 'd', 'c', 'l', 'r'], .seedclr), (['s', 'e', 't', 't', 'g', 't', 'd', 'e', 'f'], .settgtdef),
   (['s', 'e', 'a', 'r', 'c', 'h'], .search), (['v', 'e', 'r', 'i', 'f', 'y'], .verify),
   (['w', 'a', 'i', 't', '_', 'i', 'd', 'l', 'e'], .waitIdle),
   (['c', 'l', 'r', 's', 't', 'a', 't', 'u', 's'], .clrstatus),
   (['r', 'u', 'n', '_', 's', 'e', 'a', 'r', 'c', 'h'], .runSearch),
   (['r', 'u', 'n', '_', 'v', 'e', 'r', 'i', 'f', 'y'], .runVerify)]

/-- The statements with one operand, in small letters, each with the reading of that operand (R99, R100). -/
def unaryStmts : List (List Char × (List Char → Option AsmStmt)) :=
  [(['s', 'e', 'e', 'd', 'b'], fun w => (signedNumber w).map .seedb),
   (['s', 'e', 't', 't', 'g', 't'], fun w => (signedNumber w).map .settgt),
   (['r', 'd'], fun w => (regOfName w).map .rd),
   (['l', 'd', 's', 'e', 'e', 'd'], fun w => (hexDigits w).map .ldseed),
   (['l', 'd', 'n', 'o', 'n', 'c', 'e'], fun w => (signedNumber w).map .ldnonce)]

/-- A line's tokens as its statement, the mnemonic in small letters (R99). -/
def stmtOfTokens (mnemonic : List Char) (operands : List (List Char)) : Option AsmStmt :=
  match operands with
  | [] => bareStmts.lookup mnemonic
  | [w] =>
    match unaryStmts.lookup mnemonic with
    | some read => read w
    | none => none
  | [reg, [','], w] =>
    if mnemonic = ['w', 'r'] then
      match regOfName reg, signedNumber w with
      | some r, some n => some (.wr r n)
      | _, _ => none
    else none
  | _ => none

/-- The statement of one line, if it has one: none is an assembly error, and a line without a statement gives no
statement (R99). -/
def parseLine (line : List Char) : Option (List AsmStmt) :=
  match tokensFrom [] (dropComment line) with
  | [] => some []
  | mnemonic :: operands => (stmtOfTokens (mnemonic.map Char.toLower) operands).map (fun a => [a])

/-- The bus primitives of one line (R99). -/
def assembleLine (line : List Char) : Option (List HostOp) :=
  match parseLine line with
  | some stmts => (stmts.mapM assemble).map List.flatten
  | none => none

/-- A program's lines in order; one line in error is an error of the whole (R99). -/
def assembleProgram (lines : List (List Char)) : Option (List HostOp) :=
  (lines.mapM assembleLine).map List.flatten

end Sys2Proof.Machine
end

