-- ==== Sys2Proof/Tests/Slice0.lean ====
section
/-! SUPPORT. Tests: the checks of WellFormed refuse ill-formed terms, words written out from 30_encoding.md decode,
single steps agree with the vectors of 95_test_vectors.md, and every statement's hypotheses are met by a concrete state. -/

namespace Sys2Proof.Tests

open Sys2Proof Sys2Proof.Machine

/-! ### States the tests start from -/

/-- The seed of scenario 1 as 90_conflicts.md C1 corrects it. -/
def seedS1 : Bytes32 :=
  #v[0x3f, 0xcf, 0x66, 0xbc, 0x24, 0x98, 0x28, 0xc5, 0x15, 0x5e, 0xa6, 0x93, 0x36, 0x67, 0x0e, 0x0e,
     0x8c, 0xe9, 0xef, 0xef, 0x32, 0x86, 0x60, 0x3d, 0x35, 0x77, 0x0a, 0xfc, 0x78, 0x77, 0xbc, 0xcc]

/-- The seed of scenario 2 as 90_conflicts.md C1 corrects it. -/
def seedS2 : Bytes32 :=
  #v[0xd9, 0x2e, 0x9d, 0x17, 0x5a, 0x5e, 0xbe, 0x22, 0xc5, 0x33, 0x0a, 0xb3, 0x43, 0x50, 0x78, 0xf6,
     0x5a, 0x9e, 0xb9, 0xc8, 0x5a, 0x47, 0x5f, 0xdd, 0x7c, 0x33, 0x5d, 0x18, 0x0e, 0x49, 0x73, 0x75]

/-- The all-zero seed. -/
def seedZ : Bytes32 := Vector.replicate 32 0

/-- An idle block with a loaded seed, a target and a start nonce. -/
def loaded (seed : Bytes32) (t : BitVec 8) (n : Word64) : State :=
  { State.reset with seed := seed, seedCnt := 32, target := t, nonce := n }

/-- The same with a search running. -/
def searching (seed : Bytes32) (t : BitVec 8) (n : Word64) : State := { loaded seed t n with mode := .search }

/-- The same with a verification pending. -/
def verifying (seed : Bytes32) (t : BitVec 8) (n : Word64) : State := { loaded seed t n with mode := .verify }

/-- The host's next step is this access. -/
def offering (a : Access) (s : State) : State := { s with agenda := [.access a] }

/-- What a host reads at some offsets after a step that answers a next state. -/
def readsOf (r : Result) (offs : List (BitVec 8)) : Option (List Word) :=
  match r with
  | .next s => some (offs.map (memRead s))
  | .fault _ => none
  | .refused _ => none

/-! ### WellFormed refuses each kind of ill-formed term -/

theorem test_wf_access_width : (Access.mk .w16 0x08 .read).wellFormed = false := by decide

theorem test_wf_access_alignment : (Access.mk .w32 0x0A .read).wellFormed = false := by decide

theorem test_wf_access_accepts : (Access.mk .w32 0xFC .read).wellFormed = true := by decide

theorem test_wf_imm8_over : (AsmStmt.seedb 256).wellFormed = false := by decide

theorem test_wf_imm8_negative : (AsmStmt.settgt (-1)).wellFormed = false := by decide

theorem test_wf_imm8_accepts : (AsmStmt.settgt 255).wellFormed = true := by decide

theorem test_wf_imm32_over : (AsmStmt.wr .status 4294967296).wellFormed = false := by decide

theorem test_wf_ldseed_length : (AsmStmt.ldseed [3, 15, 12]).wellFormed = false := by decide

theorem test_wf_ldnonce_over : (AsmStmt.ldnonce 9223372036854775808).wellFormed = false := by decide

theorem test_wf_ldnonce_accepts : (AsmStmt.ldnonce (-9223372036854775808)).wellFormed = true := by decide

theorem test_wf_word_unassigned : wordLegal 0x00000003 = false := by decide

theorem test_wf_word_reserved_bit : wordLegal 0x80000030 = false := by decide

/-! ### Words written out bit by bit from R91, R92 and R94, and the rows of 95_test_vectors.md section 2.1 -/

theorem test_decode_nop : decode 0b00000000_00000000_00000000_00000000 = .ok (.nop) := by decide

theorem test_decode_srst : decode 0b00000000_00000000_00000000_00000001 = .ok (.srst) := by decide

theorem test_decode_abort : decode 0b00000000_00000000_00000000_00000010 = .ok (.abort) := by decide

theorem test_decode_seedclr : decode 0b00000000_00000000_00000000_00010000 = .ok (.seedclr) := by decide

theorem test_decode_seedb : decode 0b00000000_00000000_00111111_00010001 = .ok (.seedb 0x3F) := by decide

theorem test_decode_settgt : decode 0b00000000_00000000_00010110_00100000 = .ok (.settgt 22) := by decide

theorem test_decode_settgtdef : decode 0b00000000_00000000_00000000_00100001 = .ok (.settgtdef) := by decide

theorem test_decode_search : decode 0b00000000_00000000_00000000_00110000 = .ok (.search) := by decide

theorem test_decode_verify : decode 0b00000000_00000000_00000000_00110001 = .ok (.verify) := by decide

theorem test_decode_illegal_unassigned : decode 0x00000003 = .error (.unassignedOpcode 0x03) := by decide

theorem test_decode_illegal_seedb_bit16 : decode 0x00010011 = .error (.reservedBitSet 0x11) := by decide

theorem test_decode_illegal_settgtdef_bit8 : decode 0x00000121 = .error (.reservedBitSet 0x21) := by decide

theorem test_decode_illegal_search_bit31 : decode 0x80000030 = .error (.reservedBitSet 0x30) := by decide

theorem test_decode_illegal_nop_bit8 : decode 0x00000100 = .error (.reservedBitSet 0x00) := by decide

theorem test_decode_illegal_all_ones_opcode : decode 0x000000FF = .error (.unassignedOpcode 0xFF) := by decide

theorem test_table_word_seedb : decodeTableWord 32 0x0000FF11 = some (.seedb 0xFF) := by decide

theorem test_table_word_short : decodeTableWord 8 0x30 = some .search := by decide

theorem test_table_word_illegal : decodeTableWord 32 0x00000130 = none := by decide

theorem test_fetch_word_runs_next :
    readsOf (step (State.reset.withFetchWord 32 0x00001620)) [0x20] = some [22] := by decide

/-! ### The commands, one step each (95_test_vectors.md sections 1, 2.2, 2.5 to 2.9) -/

theorem test_nop_while_busy : exec .nop (searching seedZ 255 3) = .next (searching seedZ 255 3) := rfl

theorem test_srst_during_search :
    exec .srst { searching seedS1 22 4964801 with irqEn := statusBitsOf 0x7E, iters := 1 } = .next State.reset :=
  rfl

theorem test_abort_while_idle : exec .abort State.reset = .next State.reset := rfl

theorem test_abort_while_busy :
    exec .abort (searching seedZ 255 3) = .next { searching seedZ 255 3 with abortReq := true } := rfl

theorem test_seedclr_after_push :
    readsOf (exec .seedclr { State.reset with seed := seedS1, seedCnt := 33 }) [0x24, 0x40, 0x5C] = some [0, 0, 0] := by
  decide

theorem test_seedb_first :
    readsOf (exec (.seedb 0x3F) State.reset) [0x24, 0x40, 0x5C] = some [1, 0x0000003F, 0] := by decide

theorem test_seedb_33rd_is_counted_not_stored :
    readsOf (exec (.seedb 0xBB) (loaded seedS1 16 0)) [0x24, 0x40, 0x5C] = some [0x21, 0xBC66CF3F, 0xCCBC7778] := by
  decide

theorem test_settgt_255 : readsOf (exec (.settgt 255) State.reset) [0x20, 0x0C] = some [0xFF, 0] := by decide

theorem test_settgt_0 :
    readsOf (exec (.settgt 0) State.reset) [0x20, 0x0C, 0x14] = some [0, 0x00000004, 0x00000102] := by decide

theorem test_settgtdef : readsOf (exec .settgtdef { State.reset with target := 0 }) [0x20] = some [0x10] := by decide

theorem test_settgtdef_while_busy :
    readsOf (exec .settgtdef (searching seedZ 255 3)) [0x20, 0x0C] = some [0xFF, 0x21] := by decide

theorem test_search_keeps_busyviol :
    readsOf (exec .search { loaded seedZ 1 0 with status := statusBitsOf 0x7E, iters := 9 }) [0x0C, 0x28] =
      some [0x00000021, 0] := by decide

theorem test_search_with_33_bytes :
    readsOf (exec .search { loaded seedZ 16 0 with seedCnt := 33 }) [0x0C, 0x14, 0x28] =
      some [0x00000004, 0x00212001, 0] := by decide

theorem test_verify_accepted :
    readsOf (exec .verify (loaded seedS1 22 4964844)) [0x0C, 0x14, 0x28] = some [1, 0, 0] := by decide

theorem test_verify_checks_the_target_first :
    readsOf (exec .verify State.reset) [0x0C, 0x14] = some [0x00000004, 0x00002001] ∧
      readsOf (exec .verify { State.reset with target := 0 }) [0x0C, 0x14] = some [0x00000004, 0x00000102] := by
  decide

/-! ### The engine, one step each (95_test_vectors.md sections 2.6, 2.7, 3.2, 3.4, 3.5) -/

/-- Row Z1 and program P3 (e): the start nonce is no candidate. -/
theorem test_search_success :
    readsOf (.next (engineStep (searching seedZ 1 0))) [0x0C, 0x18, 0x28, 0x30, 0x38, 0x60, 0x7C] =
      some [0x2, 1, 1, 1, 0x00010001, 0x18AA3867, 0x10E3636E] := by decide +kernel

/-- Row Z2, its first iteration. -/
theorem test_search_goes_on :
    readsOf (.next (engineStep (searching seedZ 2 0))) [0x0C, 0x18, 0x28, 0x30] = some [0x1, 1, 1, 0] := by
  decide +kernel

/-- Row T2, its second iteration. -/
theorem test_search_hinonce_at_500001 :
    readsOf (.next (engineStep (searching seedS1 1 500000))) [0x0C, 0x38] = some [0xA, 0x00010001] := by
  decide +kernel

/-- Row T1. -/
theorem test_search_no_hinonce_at_500000 :
    readsOf (.next (engineStep (searching seedZ 1 499999))) [0x0C, 0x38] = some [0x2, 0x00010001] := by decide +kernel

/-- Row W1, its first iteration. -/
theorem test_search_signed_wrap :
    readsOf (.next (engineStep (searching seedZ 3 0x7FFFFFFFFFFFFFFF))) [0x0C, 0x18, 0x1C] =
      some [0x11, 0, 0x80000000] := by decide +kernel

/-- Program P5, points (b) to (c). -/
theorem test_search_takes_the_abort :
    readsOf (.next (engineStep { searching seedZ 255 3 with abortReq := true })) [0x0C, 0x18, 0x28] =
      some [0x40, 3, 0] := by decide

/-- Program P2, part b. -/
theorem test_verify_success :
    readsOf (.next (engineStep (verifying seedS1 22 4964844))) [0x0C, 0x14, 0x28, 0x30, 0x38, 0x60, 0x7C] =
      some [0x2, 0, 1, 0x004BC1EC, 0x00160016, 0x95030000, 0xE5350658] := by decide +kernel

/-- Program P2, part a. -/
theorem test_verify_failure :
    readsOf (.next (engineStep (verifying seedS1 22 4964843))) [0x0C, 0x14, 0x28, 0x30, 0x38] =
      some [0x4, 0x00001603, 1, 0, 0] := by decide +kernel

/-- Section 2.7. -/
theorem test_verify_one_too_many :
    readsOf (.next (engineStep (verifying seedS2 19 662213))) [0x0C, 0x14] = some [0x4, 0x00121303] := by
  decide +kernel

/-! ### Bus, interrupt and counter (95_test_vectors.md sections 2.4, 2.5, 2.9, 2.10) -/

theorem test_status_write_while_busy :
    readsOf (memWrite 0x0C 0xFFFFFFFF (searching seedZ 255 3)) [0x0C] = some [0x1] := by decide

theorem test_nonce_write_while_busy :
    readsOf (memWrite 0x18 0x1234 (searching seedZ 255 3)) [0x0C, 0x18] = some [0x21, 3] := by decide

theorem test_irq_enable_mask : readsOf (memWrite 0x10 0xFFFFFFFF State.reset) [0x10] = some [0x7E] := by decide

theorem test_irq_needs_the_enable :
    irq { State.reset with status := statusBitsOf 0x02 } = false ∧
      irq { State.reset with status := statusBitsOf 0x02, irqEn := statusBitsOf 0x02 } = true := by decide

theorem test_read_only_offsets :
    memWrite 0x20 5 State.reset = .next State.reset ∧ memWrite 0x80 7 State.reset = .next State.reset :=
  ⟨rfl, rfl⟩

theorem test_misaligned_access_faults : step (offering ⟨.w32, 0x09, .read⟩ State.reset) = .fault .busError := rfl

theorem test_illegal_word_reported :
    readsOf (executeCommand 0x80000030 State.reset) [0x0C, 0x14] = some [0x4, 0x00300004] := by decide

/-- Section 2.3, first row. -/
theorem test_double_hash :
    candidateDigest seedZ 0 =
    #v[0x75, 0x29, 0x98, 0x50, 0x6c, 0x34, 0x97, 0x9b, 0x5c, 0xff, 0xb9, 0x3e, 0x51, 0xc1, 0xe0, 0xc7,
     0x6e, 0xe3, 0x5f, 0xcb, 0x42, 0x0e, 0x1a, 0x66, 0xa0, 0x32, 0x73, 0x0b, 0x69, 0x10, 0x8e, 0x32] := by
  decide +kernel

theorem test_lzc_later_bytes : lzcFrom 0 (0x00 :: 0x01 :: List.replicate 30 0xFF) = 15 := by decide

theorem test_lzc_last_byte : lzcFrom 0 (List.replicate 31 0x00 ++ [0x01]) = 255 := by decide

theorem test_meets_equality : meets 22 22 = true ∧ meets 21 22 = false ∧ meets 256 255 = true := by decide

theorem test_text_mnemonic_case_and_comment :
    parseLine ['S', 'e', 'e', 'd', 'B', ' ', '0', 'x', '3', 'f', ';', '!'] = some [.seedb 0x3F] := by decide

theorem test_text_access_statement :
    parseLine ['w', 'r', ' ', 'I', 'R', 'Q', '_', 'E', 'N', ',', ' ', '0', 'x', '7', 'E'] = some [.wr .irqEn 0x7E] := by
  decide

theorem test_text_unknown_register : parseLine ['r', 'd', ' ', 'S', 'E', 'E', 'D', '_', 'W', '8'] = none := by decide

theorem test_text_imm8_out_of_range :
    assembleLine ['s', 'e', 't', 't', 'g', 't', ' ', '2', '5', '6'] = none := by decide

theorem test_ldnonce_expands :
    assemble (.ldnonce (-6)) = some [asmWr .nonceLo 0xFFFFFFFA, asmWr .nonceHi 0xFFFFFFFF] := rfl

/-! ### Every statement's hypotheses are met

One theorem per statement that has hypotheses; where clauses have hypotheses of their own, one conjunct for each, at the
edges of its range. -/

theorem witness_DecodeIsTheInverseOfEncode :
    decode 0x0000FF11 = .ok (.seedb 0xFF) ∧
    (0x0000FF11 : Word) = encode (.seedb 0xFF) := by decide

theorem witness_LegalWordsAreTheOpcodeTables :
    wordLegal 0x0000FF20 = true ∧
    OpcodeRow.mk "SETTGT" 0xFFFF00FF 0x00000020 ∈ opcodeTable ∧
    (OpcodeRow.mk "SETTGT" 0xFFFF00FF 0x00000020).accepts 0x0000FF20 = true := by decide

theorem witness_StepRunsTheWrittenCommand :
    (offering ⟨.w32, 0x08, .write 0x00001620⟩ State.reset).agenda = .access ⟨.w32, 0x08, .write 0x00001620⟩ :: [] ∧
    decode 0x00001620 = .ok (.settgt 22) := by decide

theorem witness_StepTakesEngineStepsAndResets :
    State.reset.agenda = [] ∧
    (offering ⟨.w32, 0x0C, .read⟩ State.reset).agenda = .access ⟨.w32, 0x0C, .read⟩ :: [] ∧
    { searching seedZ 1 0 with agenda := [.engine] }.agenda = .engine :: [] ∧
    { searching seedZ 1 0 with agenda := [.reset, .engine] }.agenda = .reset :: [.engine] ∧
    State.reset.mode = .idle := by decide

theorem witness_CommandDeliveryOrder :
    decode 0x00000002 = .ok .abort ∧
    decode 0x0000FF11 = .ok (.seedb 0xFF) ∧
    ¬ (Instr.seedb 0xFF = .nop ∨ Instr.seedb 0xFF = .srst ∨ Instr.seedb 0xFF = .abort) ∧
    (searching seedZ 255 3).mode ≠ .idle ∧
    decode 0x00000130 = .error (.reservedBitSet 0x30) := by decide

theorem witness_IllegalCommandIsReported :
    decode 0x80000030 = .error (.reservedBitSet 0x30) ∧
    decode 0x000000FF = .error (.unassignedOpcode 0xFF) ∧
    State.reset.mode = .idle := by decide

theorem witness_NopChangesNothing :
    (0x00000100 : Word).toNat % 256 = 0 ∧
    (0x00000100 : Word) ≠ 0 ∧
    (0x80000000 : Word).toNat % 256 = 0 := by decide

theorem witness_AbortRequestsCancellation :
    (loaded seedZ 1 0).mode = .idle ∧
    (searching seedZ 1 0).mode ≠ .idle ∧
    (verifying seedZ 1 0).mode ≠ .idle := by decide

theorem witness_SeedclrClearsTheSeed :
    (searching seedS1 1 0).mode ≠ .idle ∧
    (loaded seedS1 1 0).mode = .idle ∧
    (loaded seedS1 1 0).seed ≠ Vector.replicate 32 0 := by decide

theorem witness_SeedbPushesOneByte :
    State.reset.mode = .idle ∧
    State.reset.seedCnt = 0 ∧
    { State.reset with seedCnt := 31 }.mode = .idle ∧
    { State.reset with seedCnt := 255 }.mode = .idle := by decide

theorem witness_SettgtWritesAValidTarget :
    State.reset.mode = .idle ∧
    1 ≤ (1 : Byte).toNat ∧
    1 ≤ (255 : Byte).toNat := by decide

theorem witness_SettgtdefWritesThePreset :
    (verifying seedS1 1 0).mode ≠ .idle ∧
    (loaded seedS1 255 0).mode = .idle := by decide

theorem witness_SearchIsAccepted :
    (loaded seedS1 1 0).mode = .idle ∧
    (loaded seedS1 1 0).target ≠ 0 ∧
    (loaded seedS1 1 0).seedCnt = 32 := by decide

theorem witness_VerifyIsAccepted :
    (loaded seedS1 1 0).mode = .idle ∧
    (loaded seedS1 1 0).target ≠ 0 ∧
    (loaded seedS1 1 0).seedCnt = 32 := by decide

theorem witness_InvalidDifficultyIsReported :
    (255 : Byte) ≠ 0 ∧
    (loaded seedS1 0 0).mode = .idle ∧
    (loaded seedS1 0 0).target = 0 ∧
    { loaded seedS1 0 0 with seedCnt := 31 }.target = 0 := by decide

theorem witness_OperationsNeed32SeedBytes :
    { loaded seedS1 16 0 with seedCnt := 31 }.mode = .idle ∧
    { loaded seedS1 16 0 with seedCnt := 31 }.target ≠ 0 ∧
    { loaded seedS1 16 0 with seedCnt := 31 }.seedCnt ≠ 32 ∧
    { loaded seedS1 16 0 with seedCnt := 33 }.seedCnt ≠ 32 ∧
    { loaded seedS1 16 0 with seedCnt := 255 }.seedCnt ≠ 32 := by decide

theorem witness_BusyBlockDropsWrites :
    (searching seedZ 255 3).mode ≠ .idle ∧
    (0x00000520 : Word) ≠ encode .nop ∧
    (0x00000520 : Word) ≠ encode .srst ∧
    (0x00000520 : Word) ≠ encode .abort ∧
    (0x00000101 : Word) ≠ encode .srst ∧
    (0x20 : BitVec 8).toNat % 4 = 0 ∧
    ¬ ((0x20 : BitVec 8) = 0x08 ∨ (0x20 : BitVec 8) = 0x0C ∨ (0x20 : BitVec 8) = 0x10 ∨ (0x20 : BitVec 8) = 0x18 ∨
      (0x20 : BitVec 8) = 0x1C) := by decide

theorem witness_SearchIteration :
    (searching seedZ 1 0).mode = .search ∧
    { searching seedZ 1 0 with abortReq := true }.abortReq = true ∧
    (searching seedZ 1 0).abortReq = false ∧
    (searching seedZ 1 0).target.toNat ≤ lzc (doubleHash (seedZ.toList ++ le64 ((searching seedZ 1 0).nonce + 1))) ∧
    lzc (doubleHash (seedZ.toList ++ le64 ((searching seedZ 2 0).nonce + 1))) < (searching seedZ 2 0).target.toNat := by
  decide +kernel

theorem witness_VerificationStep :
    (verifying seedZ 9 3).mode = .verify ∧
    { verifying seedZ 9 3 with abortReq := true }.abortReq = true ∧
    (verifying seedZ 9 3).abortReq = false ∧
    (verifying seedZ 9 3).target.toNat ≤ lzc (doubleHash (seedZ.toList ++ le64 (verifying seedZ 9 3).nonce)) ∧
    lzc (doubleHash (seedZ.toList ++ le64 (verifying seedZ 10 3).nonce)) < (verifying seedZ 10 3).target.toNat := by
  decide +kernel

theorem witness_VerificationIsConsistent :
    (loaded seedZ 10 3).mode = .idle ∧
    (loaded seedZ 10 3).target ≠ 0 ∧
    (loaded seedZ 10 3).seedCnt = 32 ∧
    lzc (doubleHash (seedZ.toList ++ le64 (loaded seedZ 10 3).nonce)) < (loaded seedZ 10 3).target.toNat := by
  decide +kernel

theorem witness_SearchFindsTheFirstCandidate :
    (offering ⟨.w32, 0x08, .write 0x00000030⟩ (loaded seedZ 2 0)).agenda = [.access ⟨.w32, 0x08, .write 0x00000030⟩] ∧
    (loaded seedZ 2 0).mode = .idle ∧
    (loaded seedZ 2 0).target ≠ 0 ∧
    (loaded seedZ 2 0).seedCnt = 32 ∧
    1 ≤ 3 ∧
    meetsTarget seedZ 2 (candidate 0 3) = true ∧
    (∀ i : Fin 3, 1 ≤ i.val → meetsTarget seedZ 2 (candidate 0 i.val) = false) := by decide +kernel

theorem witness_SearchGoesOnWithoutACap :
    (searching seedZ 2 0).mode = .search ∧
    (searching seedZ 2 0).abortReq = false ∧
    (searching seedZ 2 0).agenda = [] ∧
    (∀ i : Fin 3, 1 ≤ i.val → meetsTarget seedZ 2 (candidate 0 i.val) = false) := by decide +kernel

theorem witness_FoundNonceVerifies :
    (searching seedZ 9 2).mode = .search ∧
    (searching seedZ 9 2).seedCnt = 32 ∧
    (searching seedZ 9 2).abortReq = false ∧
    meetsTarget (searching seedZ 9 2).seed (searching seedZ 9 2).target ((searching seedZ 9 2).nonce + 1) = true ∧
    1 ≤ (1 : BitVec 8).toNat ∧
    (1 : BitVec 8).toNat ≤ (searching seedZ 9 2).target.toNat := by decide +kernel

theorem witness_AbortedSearchResumes :
    (loaded seedZ 2 0).mode = .idle ∧
    (loaded seedZ 2 0).target ≠ 0 ∧
    (loaded seedZ 2 0).seedCnt = 32 ∧
    (∀ i : Fin (2 + 1), 1 ≤ i.val → meetsTarget seedZ 2 (candidate 0 i.val) = false) ∧
    1 ≤ 1 := by decide +kernel

theorem witness_SearchHasNoErrorPath :
    (searching seedZ 1 0).mode = .search ∧
    (∃ t, step { searching seedZ 255 3 with abortReq := true } = .next t ∧ t.mode ≠ .search) :=
  ⟨by decide, _, rfl, by decide⟩

theorem witness_HostAccessesLeaveTheOperationAlone :
    (searching seedZ 255 3).mode ≠ .idle ∧
    hostAccess ⟨.w32, 0x18, .write 0x1234⟩ (searching seedZ 255 3) = .next (dropBusy (searching seedZ 255 3)) ∧
    Access.mk .w32 0x18 (.write 0x1234) ≠ ⟨.w32, 0x08, .write 0x00000001⟩ ∧
    Access.mk .w32 0x18 (.write 0x1234) ≠ ⟨.w32, 0x08, .write 0x00000002⟩ :=
  ⟨by decide, rfl, by decide, by decide⟩

theorem witness_AgreeingHighHalvesMeanNoTearing :
    (searching seedZ 255 0x00000005FFFFFFFF).mode = .search ∧
    ((searching seedZ 255 0x00000005FFFFFFFF).nonce.toNat % 2 ^ 32 + 0 + 0) / 2 ^ 32 < 2 ^ 32 ∧
    memRead (engineSteps (0 + 0) (searching seedZ 255 0x00000005FFFFFFFF)) 0x1C =
      memRead (searching seedZ 255 0x00000005FFFFFFFF) 0x1C ∧
    memRead (engineSteps (1 + 1) (searching seedZ 255 2)) 0x1C = memRead (searching seedZ 255 2) 0x1C := by
  decide +kernel

theorem witness_EveryStepKeepsTheInvariant : StateInv State.reset ∧ step State.reset = .next State.reset where
  left := { busy_target := by decide, busy_seed := by decide, abort_busy := by decide, busy_flags := by decide,
            verify_fresh := by decide, err_legal := .inl rfl, result_valid := .inl rfl,
            done_valid := fun h => absurd h (by decide), done_not_aborted := by decide, hinonce_high := by decide,
            seed_tail := by decide }
  right := rfl

theorem witness_OnlySuccessOrResetWritesTheResult :
    step (offering ⟨.w32, 0x10, .write 0x7E⟩ State.reset) = .next { State.reset with irqEn := statusBitsOf 0x7E } :=
  rfl

theorem witness_TargetAndSeedAreFixedWhileBusy :
    (offering ⟨.w32, 0x08, .write 0x00000520⟩ (searching seedZ 255 3)).mode ≠ .idle ∧
    step (offering ⟨.w32, 0x08, .write 0x00000520⟩ (searching seedZ 255 3)) = .next (dropBusy (searching seedZ 255 3)) :=
  ⟨by decide, rfl⟩

theorem witness_ModeChangesOnlyAtStartAndEnd :
    step (offering ⟨.w32, 0x08, .write 0x00000030⟩ (loaded seedZ 1 0)) = .next (searching seedZ 1 0) ∧
    (searching seedZ 1 0).mode ≠ (offering ⟨.w32, 0x08, .write 0x00000030⟩ (loaded seedZ 1 0)).mode :=
  ⟨rfl, by decide⟩

theorem witness_CleanRunsNeverStop :
    (Access.mk .w32 0x0C .read).wellFormed = true ∧
    AgendaClean (offering ⟨.w32, 0x0C, .read⟩ (searching seedZ 1 0)) := by 
  refine ⟨by decide, fun a h => ?_⟩
  simp only [offering, List.mem_singleton, Event.access.injEq] at h
  subst h
  decide

theorem witness_ReadsReturnTheRegisters :
    (0x00 : BitVec 8).toNat % 4 = 0 ∧
    (0xFC : BitVec 8).toNat % 4 = 0 ∧
    0x80 ≤ (0x80 : BitVec 8).toNat := by decide

theorem witness_WritesActOnTheRegisters :
    (0xFC : BitVec 8).toNat % 4 = 0 ∧
    ¬ ((0xFC : BitVec 8) = 0x08 ∨ (0xFC : BitVec 8) = 0x0C ∨ (0xFC : BitVec 8) = 0x10 ∨ (0xFC : BitVec 8) = 0x18 ∨
      (0xFC : BitVec 8) = 0x1C) := by decide

theorem witness_WindowDecodesItsOwnAddresses :
    (Config.pwseBase + 256 < Config.pwseBase ∨ Config.pwseBase + 256 ≤ Config.pwseBase + 256) :=
  .inr (Nat.le_refl _)

theorem witness_WaitIdleEndsIdle :
    waitIdle [1, 0, 2] { searching seedZ 255 3 with abortReq := true } =
      some { loaded seedZ 255 3 with status := statusBitsOf 0x40, rdata := some 0x40 } := by decide

theorem witness_SeedLoadKeepsPushOrder :
    State.mode { State.reset with
      agenda := cmdWrite (encode .seedclr) :: seedS1.toList.map (fun b => cmdWrite (encode (.seedb b))) } = .idle ∧
    (cmdWrite (encode .seedclr) :: seedS1.toList.map (fun b => cmdWrite (encode (.seedb b)))).length = 33 := by decide

theorem witness_LdseedExpansion :
    (List.replicate 63 (0xA : BitVec 4)).length ≠ 64 ∧
    (List.replicate 65 (0xA : BitVec 4)).length ≠ 64 ∧
    (List.replicate 64 (0xA : BitVec 4)).length = 64 := by decide

theorem witness_PaddingFillsWholeBlocks :
    (List.replicate 119 (0x61 : Byte)).length < 2 ^ 61 ∧
    (candidateMsg seedS1 0).length = 40 ∧
    seedS1.toList.length = 32 := by decide

theorem witness_LzcIsDecidedByTheFirstNonZeroByte :
    seedS1[0] ≠ 0 ∧
    (Vector.replicate 31 (0 : Byte) ++ #v[(0x01 : Byte)])[31] ≠ 0 ∧
    (∀ j : Fin 31, (Vector.replicate 31 (0 : Byte) ++ #v[(0x01 : Byte)])[j.val] = 0) := by decide

theorem witness_ComparatorIsMonotone :
    1 ≤ (1 : BitVec 8).toNat ∧
    meets 22 22 = true ∧
    (1 : BitVec 8).toNat ≤ (22 : BitVec 8).toNat := by decide

theorem witness_BusyReflectsMode :
    (memRead (searching seedZ 1 0) 0x0C).getLsbD 0 = true ∧
    (memRead State.reset 0x0C).getLsbD 0 = false := by decide

theorem witness_OnlyBadAccessesFault :
    (offering ⟨.w8, 0x08, .read⟩ State.reset).agenda = .access ⟨.w8, 0x08, .read⟩ :: [] ∧
    AccessWidth.w8 ≠ .w32 ∧
    (0x0B : BitVec 8).toNat % 4 ≠ 0 := by decide

end Sys2Proof.Tests
end

section
/-! PROOFS. The decoder inverted, and the words of the status registers: facts the statements about steps and reads
use. -/

namespace Sys2Proof.Machine

open Sys2Proof

/-- A word is its format N fields side by side (R91). -/
theorem eq_append_opcOf (w : Word) : w = w.extractLsb' 8 24 ++ opcOf w := by
  have h : w.extractLsb' 8 24 ++ opcOf w = w.extractLsb' 0 32 :=
    BitVec.extractLsb'_append_extractLsb'_eq_extractLsb' (len₁ := 8) (len₂ := 24) rfl
  exact (h.trans BitVec.extractLsb'_eq_self).symm

/-- A word is its format I fields side by side (R92). -/
theorem eq_append_imm8Of_opcOf (w : Word) : w = w.extractLsb' 16 16 ++ imm8Of w ++ opcOf w := by
  have h : w.extractLsb' 16 16 ++ imm8Of w = w.extractLsb' 8 24 :=
    BitVec.extractLsb'_append_extractLsb'_eq_extractLsb' (len₁ := 8) (len₂ := 16) rfl
  rw [h]
  exact eq_append_opcOf w

theorem decodeN_eq_ok {w : Word} {opc : Byte} {i j : Instr} (ho : opcOf w = opc) (h : decodeN w i = .ok j) :
    j = i ∧ w = wordN opc := by
  unfold decodeN at h
  split at h
  · next hr =>
    cases h
    exact ⟨rfl, by rw [wordN, ← ho, ← hr]; exact eq_append_opcOf w⟩
  · cases h

theorem decodeI_eq_ok {w : Word} {opc : Byte} {f : Byte → Instr} {j : Instr} (ho : opcOf w = opc)
    (h : decodeI w f = .ok j) : j = f (imm8Of w) ∧ w = wordI opc (imm8Of w) := by
  unfold decodeI at h
  split at h
  · next hr =>
    cases h
    exact ⟨rfl, by rw [wordI, ← ho, ← hr]; exact eq_append_imm8Of_opcOf w⟩
  · cases h

/-- A word that decodes to a command is that command's word: decoding drops no bit (R91, R92, R95). -/
theorem eq_encode_of_decode {w : Word} {i : Instr} (h : decode w = .ok i) : w = encode i := by
  unfold decode at h
  split_ifs at h with h00 h01 h02 h10 h11 h20 h21 h30 h31
  · obtain ⟨rfl, hw⟩ := decodeN_eq_ok h00 h; exact hw
  · obtain ⟨rfl, hw⟩ := decodeN_eq_ok h01 h; exact hw
  · obtain ⟨rfl, hw⟩ := decodeN_eq_ok h02 h; exact hw
  · obtain ⟨rfl, hw⟩ := decodeN_eq_ok h10 h; exact hw
  · obtain ⟨rfl, hw⟩ := decodeI_eq_ok h11 h; exact hw
  · obtain ⟨rfl, hw⟩ := decodeI_eq_ok h20 h; exact hw
  · obtain ⟨rfl, hw⟩ := decodeN_eq_ok h21 h; exact hw
  · obtain ⟨rfl, hw⟩ := decodeN_eq_ok h30 h; exact hw
  · obtain ⟨rfl, hw⟩ := decodeN_eq_ok h31 h; exact hw

/-- Bits [31:7] of `STATUS` and of `IRQ_EN` read 0 (R26, R28). -/
theorem statusBitsWord_high (b : StatusBits) (x : Bool) {k : Nat} (hk : 7 ≤ k) :
    (statusBitsWord b x).getLsbD k = false := by
  simp only [statusBitsWord, bit1, BitVec.getLsbD_append]
  repeat rw [if_neg (by omega)]
  exact BitVec.getLsbD_zero

/-- Keeping the six bits of a written word is masking it with `0x7E` (R28). -/
theorem statusBitsWord_statusBitsOf (v : Word) : statusBitsWord (statusBitsOf v) false = v &&& 0x0000007E := by
  apply BitVec.eq_of_getLsbD_eq
  intro k _
  rw [BitVec.getLsbD_and]
  by_cases hk : 7 ≤ k
  · have hmask : (0x0000007E : Word).getLsbD k = false :=
      BitVec.getLsbD_of_ge (0x7E : BitVec 7) k hk
    rw [statusBitsWord_high _ _ hk, hmask, Bool.and_false]
  · match k with
    | 0 => rw [statusBitsWord_bit0]; simp
    | 1 => rw [statusBitsWord_bit1]; simp [statusBitsOf]
    | 2 => rw [statusBitsWord_bit2]; simp [statusBitsOf]
    | 3 => rw [statusBitsWord_bit3]; simp [statusBitsOf]
    | 4 => rw [statusBitsWord_bit4]; simp [statusBitsOf]
    | 5 => rw [statusBitsWord_bit5]; simp [statusBitsOf]
    | 6 => rw [statusBitsWord_bit6]; simp [statusBitsOf]
    | _ + 7 => omega

end Sys2Proof.Machine
end

section
/-! PROOFS. One step as one relation: what an event can do to a state, each case named by the operation that does it,
and what each operation does to the mode and to the result group. -/

namespace Sys2Proof.Machine

open Sys2Proof

/-- The host's write of a register of the window (R60, R64). -/
def regWrite (r : Reg) (v : Word) : Event := .access ⟨.w32, regOffset r, .write v⟩

theorem regWrite_cmd (w : Word) : regWrite .cmd w = cmdWrite w := rfl

/-- `Effect s e t`: the event `e` can take `s` to `t` (R73). One constructor per way an event can end; `step_effect`
says that every step is one of them. -/
inductive Effect (s : State) : Event → State → Prop where
  /-- The engine's step, if one is enabled (R21). -/
  | engine : Effect s .engine (engineStep s)
  /-- A reset of the platform (R231). -/
  | reset : Effect s .reset (applyResetValues s)
  /-- An answered read (R63). -/
  | read (a : Access) : a.kind = .read → Effect s (.access a) (answerRead (memRead s a.off) s)
  /-- A command delivered to an idle block (R97). -/
  | idleCommand (i : Instr) : s.mode = .idle → Effect s (cmdWrite (encode i)) (idlePerform i s)
  /-- A command delivered to a busy block (R97). -/
  | busyCommand (i : Instr) : s.mode ≠ .idle → Effect s (cmdWrite (encode i)) (busyPerform i s)
  /-- An illegal word delivered to an idle block (R207). -/
  | illegal (w : Word) (e : DecodeError) : decode w = .error e → s.mode = .idle →
      Effect s (cmdWrite w) (raise (.illegalCommand (opcOf w)) s)
  /-- A write that a busy block drops (R240). -/
  | dropped (a : Access) : s.mode ≠ .idle → Effect s (.access a) (dropBusy s)
  /-- A write of `STATUS` (R26). -/
  | acknowledged (v : Word) : Effect s (regWrite .status v) (ackStatus v s)
  /-- A write of `IRQ_EN` (R28). -/
  | irqEnabled (v : Word) : Effect s (regWrite .irqEn v) (setIrqEn v s)
  /-- A write of `NONCE_LO` while idle (R30). -/
  | nonceLoWritten (v : Word) : s.mode = .idle → Effect s (regWrite .nonceLo v) (setNonce (withLo s.nonce v) s)
  /-- A write of `NONCE_HI` while idle (R30). -/
  | nonceHiWritten (v : Word) : s.mode = .idle → Effect s (regWrite .nonceHi v) (setNonce (withHi s.nonce v) s)
  /-- A write that a read-only or reserved offset ignores (R64). -/
  | ignored (a : Access) : Effect s (.access a) s

/-- An answered write access at a register's offset is the host's write of that register (R62). -/
theorem access_eq_regWrite {a : Access} {v : Word} {r : Reg} (hw : a.wellFormed = true) (hk : a.kind = .write v)
    (ho : a.off = regOffset r) : Event.access a = regWrite r v := by
  obtain ⟨width, off, kind⟩ := a
  simp only [Access.wellFormed, Bool.and_eq_true, beq_iff_eq] at hw hk ho
  obtain ⟨hwidth, -⟩ := hw
  simp only [regWrite, hwidth, hk, ho]

/-- A delivered command word has one of the effects (R97). -/
theorem executeCommand_effect {w : Word} {s t : State} (h : executeCommand w s = .next t) :
    Effect s (cmdWrite w) t := by
  obtain ⟨i, hd, hm, rfl⟩ | ⟨i, hd, hm, rfl⟩ | ⟨e, hd, hm, rfl⟩ | ⟨_, -, hm, rfl⟩ :=
    executeCommand_cases h
  · rw [eq_encode_of_decode hd]; exact .idleCommand i hm
  · rw [eq_encode_of_decode hd]; exact .busyCommand i hm
  · exact .illegal w e hd hm
  · exact .dropped _ hm

/-- A write of half of `NONCE` is dropped by a busy block, so its effect is known once it is for an idle one (R30). -/
theorem writeNonce_effect {a : Access} {n : Word64} {s : State}
    (hidle : s.mode = .idle → Effect s (.access a) (setNonce n s)) : Effect s (.access a) (writeNonce n s) := by
  obtain ⟨hm, h⟩ | ⟨hm, h⟩ := writeNonce_cases n s
  · rw [h]; exact hidle hm
  · rw [h]; exact .dropped a hm

/-- An answered access has one of the effects (R62 to R64). -/
theorem hostAccess_effect {a : Access} {s t : State} (h : hostAccess a s = .next t) : Effect s (.access a) t := by
  obtain ⟨hw, ⟨hk, rfl⟩ | ⟨v, hk, hv⟩⟩ := hostAccess_cases h
  · exact .read a hk
  obtain ⟨ho, hc⟩ | ⟨ho, rfl⟩ | ⟨ho, rfl⟩ | ⟨ho, rfl⟩ | ⟨ho, rfl⟩ | rfl := memWrite_cases hv
  · rw [access_eq_regWrite hw hk ho, regWrite_cmd]; exact executeCommand_effect hc
  · rw [access_eq_regWrite hw hk ho]; exact .acknowledged v
  · rw [access_eq_regWrite hw hk ho]; exact .irqEnabled v
  · rw [access_eq_regWrite hw hk ho]; exact writeNonce_effect (.nonceLoWritten v)
  · rw [access_eq_regWrite hw hk ho]; exact writeNonce_effect (.nonceHiWritten v)
  · exact .ignored a

/-- Every step is the effect of one event, on the state without it: the next one of the agenda, or, once that is empty,
the engine's (R73; log entry 1). -/
theorem step_effect {s t : State} (h : step s = .next t) :
    ∃ e rest, (s.agenda = e :: rest ∨ s.agenda = [] ∧ rest = [] ∧ e = .engine) ∧
      Effect { s with agenda := rest } e t := by
  obtain ⟨ha, rfl⟩ | ⟨rest, ha, rfl⟩ | ⟨rest, ha, rfl⟩ | ⟨a, rest, ha, hacc⟩ := step_cases h
  · exact ⟨.engine, [], .inr ⟨ha, rfl, rfl⟩, by rw [← ha]; exact .engine⟩
  · exact ⟨.engine, rest, .inl ha, .engine⟩
  · exact ⟨.reset, rest, .inl ha, .reset⟩
  · exact ⟨.access a, rest, .inl ha, hostAccess_effect hacc⟩

/-! ### The mode -/

/-- An engine step leaves the mode or ends the operation (R21). -/
theorem engineStep_mode (s : State) :
    (engineStep s).mode = s.mode ∨ s.mode ≠ .idle ∧ (engineStep s).mode = .idle := by
  cases hm : s.mode with
  | idle => rw [engineStep_idle hm]; exact .inl hm
  | search =>
    rw [engineStep_search hm]
    obtain ⟨-, h⟩ | ⟨-, -, h⟩ | ⟨-, -, h⟩ := searchStep_cases s
    · rw [h]; exact .inr ⟨nofun, rfl⟩
    · rw [h]; exact .inr ⟨nofun, rfl⟩
    · rw [h]; exact .inl hm
  | verify =>
    rw [engineStep_verify hm]
    obtain ⟨-, h⟩ | ⟨-, -, h⟩ | ⟨-, -, h⟩ := verifyStep_cases s <;> rw [h] <;> exact .inr ⟨nofun, rfl⟩

theorem startOperation_mode (m : Mode) (s : State) :
    (startOperation m s).mode = s.mode ∨ (startOperation m s).mode = m := by
  obtain ⟨-, h⟩ | ⟨-, -, h⟩ | ⟨-, -, h⟩ := startOperation_cases m s
  · rw [h]; exact .inl rfl
  · rw [h]; exact .inl rfl
  · rw [h]; exact .inr rfl

@[simp] theorem constructTarget_mode (b : Byte) (s : State) : (constructTarget b s).mode = s.mode := by
  obtain ⟨-, h⟩ | ⟨-, h⟩ := constructTarget_cases b s <;> rw [h] <;> rfl

/-- A command leaves an idle block idle, or it is the `SEARCH` or `VERIFY` whose mode the block takes (R160, R180). -/
theorem idlePerform_mode (i : Instr) {s : State} (hm : s.mode = .idle) :
    (idlePerform i s).mode = .idle ∨ (i = .search ∧ (idlePerform i s).mode = .search) ∨
      (i = .verify ∧ (idlePerform i s).mode = .verify) := by
  cases i with
  | search => exact (startOperation_mode .search s).imp (·.trans hm) (.inl ⟨rfl, ·⟩)
  | verify => exact (startOperation_mode .verify s).imp (·.trans hm) (.inr ⟨rfl, ·⟩)
  | _ => simp [idlePerform, hm]

/-- A command leaves a busy block's mode, or resets it (R97). -/
theorem busyPerform_mode (i : Instr) (s : State) :
    (busyPerform i s).mode = s.mode ∨ (busyPerform i s).mode = .idle := by
  cases i <;> simp [busyPerform]

/-! ### The result group -/

/-- An engine step leaves the result group, or ends its operation as a success for the operation's target (R38,
R164). -/
theorem engineStep_result (s : State) :
    (engineStep s).result = s.result ∨
      s.mode ≠ .idle ∧ (engineStep s).mode = .idle ∧ (engineStep s).status.done = true ∧
        (engineStep s).result.tgt = s.target := by
  cases hm : s.mode with
  | idle => rw [engineStep_idle hm]; exact .inl rfl
  | search =>
    rw [engineStep_search hm]
    obtain ⟨-, h⟩ | ⟨-, -, h⟩ | ⟨-, -, h⟩ := searchStep_cases s
    · rw [h]; exact .inl rfl
    · rw [h]; exact .inr ⟨nofun, rfl, rfl, rfl⟩
    · rw [h]; exact .inl rfl
  | verify =>
    rw [engineStep_verify hm]
    obtain ⟨-, h⟩ | ⟨-, -, h⟩ | ⟨-, -, h⟩ := verifyStep_cases s
    · rw [h]; exact .inl rfl
    · rw [h]; exact .inr ⟨nofun, rfl, rfl, rfl⟩
    · rw [h]; exact .inl rfl

@[simp] theorem startOperation_result (m : Mode) (s : State) : (startOperation m s).result = s.result := by
  obtain ⟨-, h⟩ | ⟨-, -, h⟩ | ⟨-, -, h⟩ := startOperation_cases m s <;> rw [h] <;> rfl

@[simp] theorem constructTarget_result (b : Byte) (s : State) : (constructTarget b s).result = s.result := by
  obtain ⟨-, h⟩ | ⟨-, h⟩ := constructTarget_cases b s <;> rw [h] <;> rfl

/-- No command of an idle block but a reset writes the result group (R38). -/
theorem idlePerform_result (i : Instr) (s : State) :
    (idlePerform i s).result = s.result ∨ idlePerform i s = applyResetValues s := by
  cases i <;> simp [idlePerform]

/-- No command of a busy block but a reset writes the result group (R38). -/
theorem busyPerform_result (i : Instr) (s : State) :
    (busyPerform i s).result = s.result ∨ busyPerform i s = applyResetValues s := by
  cases i <;> simp [busyPerform]

end Sys2Proof.Machine
end

section
/-! PROOFS. The statements about the mode and the result group (10_state.md R21, R38). -/

namespace Sys2Proof.Machine

open Sys2Proof

/-- Settles O36: a step is one effect, and only two effects change the mode: the engine's step ends an operation, and a
`SEARCH` or `VERIFY` starts one. -/
theorem modeChangesOnlyAtStartAndEnd : Obligations.ModeChangesOnlyAtStartAndEnd := by
  intro s t h hne
  obtain ⟨e, rest, he, heff⟩ := step_effect h
  cases heff with
  | engine => exact .inr ((engineStep_mode _).resolve_left hne)
  | reset => exact .inr ⟨hne.symm, rfl⟩
  | idleCommand i hm =>
    have ha : s.agenda = cmdWrite (encode i) :: rest := he.resolve_right fun hnil => nomatch hnil.2.2
    obtain hi | ⟨rfl, hi⟩ | ⟨rfl, hi⟩ := idlePerform_mode i hm
    · exact absurd (hi.trans hm.symm) hne
    · exact .inl ⟨hm, rest, .inl ⟨hi, ha⟩⟩
    · exact .inl ⟨hm, rest, .inr ⟨hi, ha⟩⟩
  | busyCommand i hm => exact .inr ⟨hm, (busyPerform_mode i _).resolve_left hne⟩
  | read | illegal | dropped | acknowledged | irqEnabled | nonceLoWritten | nonceHiWritten
  | ignored => exact absurd rfl hne

/-- Settles O34: of the effects of a step only a success of the engine's and a reset reach the result group. -/
theorem onlySuccessOrResetWritesTheResult : Obligations.OnlySuccessOrResetWritesTheResult := by
  intro s t h
  obtain ⟨e, rest, -, heff⟩ := step_effect h
  cases heff with
  | engine => exact (engineStep_result _).imp_right .inl
  | reset => exact .inr (.inr rfl)
  | idleCommand i => exact (idlePerform_result i _).imp_right fun hr => .inr (by rw [hr]; rfl)
  | busyCommand i => exact (busyPerform_result i _).imp_right fun hr => .inr (by rw [hr]; rfl)
  | read | illegal | dropped | acknowledged | irqEnabled | nonceLoWritten | nonceHiWritten
  | ignored => exact .inl rfl

end Sys2Proof.Machine
end

section
/-! PROOFS. Each shared operation keeps the machine's invariant, and so does every effect of a step (R22, R38, R161,
R162, R200, R201). -/

namespace Sys2Proof.Machine

open Sys2Proof

/-! ### What reset, the host's accesses and the start of an operation keep -/

/-- Settles O33. -/
theorem resetMeetsTheInvariant : Obligations.ResetMeetsTheInvariant where
  busy_target hb := absurd rfl hb
  busy_seed hb := absurd rfl hb
  abort_busy := nofun
  busy_flags hb := absurd rfl hb
  verify_fresh := nofun
  err_legal := .inl rfl
  result_valid := .inl rfl
  done_valid := nofun
  done_not_aborted h := nomatch h.1
  hinonce_high := nofun
  seed_tail _ hk _ := Vector.getElem_replicate hk

section

variable {s : State}

theorem stateInv_applyResetValues (s : State) : StateInv (applyResetValues s) :=
  { resetMeetsTheInvariant with }

/-- What is left of the agenda is no part of the invariant. -/
theorem stateInv_agenda (h : StateInv s) (rest : List Event) : StateInv { s with agenda := rest } := { h with }

theorem stateInv_answerRead (h : StateInv s) (v : Word) : StateInv (answerRead v s) := { h with }

theorem stateInv_setIrqEn (h : StateInv s) (v : Word) : StateInv (setIrqEn v s) := { h with }

theorem stateInv_setNonce (h : StateInv s) (n : Word64) : StateInv (setNonce n s) := { h with }

theorem stateInv_dropBusy (h : StateInv s) : StateInv (dropBusy s) := { h with }

/-- The host's acknowledgement only clears flags, and each part of the invariant about a flag survives that (R26). -/
theorem stateInv_ackStatus (h : StateInv s) (v : Word) : StateInv (ackStatus v s) :=
  { h with
    busy_flags := fun hb => by
      obtain ⟨hdone, herr, hhi, habt, hinfo⟩ := h.busy_flags hb
      simp [clearOnes, hdone, herr, hhi, habt, hinfo]
    verify_fresh := fun hv => by
      obtain ⟨hwrap, hiters⟩ := h.verify_fresh hv
      simp [clearOnes, hwrap, hiters]
    done_valid := fun hd => h.done_valid (Bool.and_elim_left hd)
    done_not_aborted := fun hda => h.done_not_aborted ⟨Bool.and_elim_left hda.1, Bool.and_elim_left hda.2⟩
    hinonce_high := fun hh => h.hinonce_high (Bool.and_elim_left hh) }

theorem stateInv_requestAbort (h : StateInv s) (hb : s.mode ≠ .idle) : StateInv (requestAbort s) :=
  { h with abort_busy := fun _ => hb }

/-- An idle block may report any error of R200. -/
theorem stateInv_raise {e : PwseError} (h : StateInv s) (hm : s.mode = .idle) (he : ErrInfoLegal (errInfoOf e)) :
    StateInv (raise e s) :=
  { h with
    busy_flags := fun hb => absurd hm hb
    err_legal := he }

/-- The start of an operation clears what the invariant speaks of (R161). -/
theorem stateInv_beginOperation (h : StateInv s) : StateInv (beginOperation s) :=
  { h with
    abort_busy := nofun
    busy_flags := fun _ => ⟨rfl, rfl, rfl, rfl, rfl⟩
    verify_fresh := fun _ => ⟨rfl, rfl⟩
    err_legal := .inl rfl
    done_valid := nofun
    done_not_aborted := fun hda => nomatch hda.1
    hinonce_high := nofun }

/-! ### The errors -/

theorem errInfoLegal_illegalCommand (opc : Byte) : ErrInfoLegal (errInfoOf (.illegalCommand opc)) := by
  have := opc.isLt
  refine .inr (.inr (.inr (.inr ⟨rfl, rfl, ?_⟩)))
  simp [errInfoOf]; omega

theorem errInfoLegal_invalidDifficulty {b : Byte} (hb : b < Config.minTarget) :
    ErrInfoLegal (errInfoOf (.invalidDifficulty Config.minTarget b)) := by
  have hzero : b = 0 := by simp only [Config.minTarget] at hb; bv_omega
  exact .inr (.inr (.inl ⟨rfl, rfl, by rw [hzero]; rfl⟩))

theorem errInfoLegal_seedLengthMismatch {n : BitVec 8} (hn : n ≠ Config.seedLen) :
    ErrInfoLegal (errInfoOf (.seedLengthMismatch Config.seedLen n)) := by
  have := n.isLt
  refine .inr (.inl ⟨rfl, rfl, ?_, ?_⟩)
  · simp [errInfoOf]; omega
  · intro h
    simp only [errInfoOf, Config.seedLen] at h hn
    bv_omega

/-- A verification that fails counts fewer bits than its target asks for, so the target is not 0 and the count fits
(R206). -/
theorem errInfoLegal_insufficientLeadingZeros {t : BitVec 8} {d : Bytes32} (h : meets (lzc d) t = false) :
    ErrInfoLegal (errInfoOf (.insufficientLeadingZeros t (BitVec.ofNat 9 (lzc d)))) := by
  have hlt : lzc d < t.toNat := (meets_false_iff _ _).mp h
  refine .inr (.inr (.inr (.inl ⟨rfl, ?_, ?_⟩)))
  · rintro rfl; exact absurd hlt (Nat.not_lt_zero _)
  · rw [errInfoOf, lzc_toNat]; exact hlt

/-! ### The commands -/

theorem stateInv_setTarget (h : StateInv s) (hm : s.mode = .idle) (t : BitVec 8) : StateInv (setTarget t s) :=
  { h with busy_target := fun hb => absurd hm hb }

theorem stateInv_constructTarget (h : StateInv s) (hm : s.mode = .idle) (b : Byte) :
    StateInv (constructTarget b s) := by
  obtain ⟨hb, ht⟩ | ⟨-, ht⟩ := constructTarget_cases b s
  · rw [ht]; exact stateInv_raise (stateInv_setTarget h hm 0) hm (errInfoLegal_invalidDifficulty hb)
  · rw [ht]; exact stateInv_setTarget h hm b

theorem stateInv_clearSeed (h : StateInv s) (hm : s.mode = .idle) : StateInv (clearSeed s) :=
  { h with
    busy_seed := fun hb => absurd hm hb
    seed_tail := fun _ hk _ => Vector.getElem_replicate hk }

/-- A push writes the byte at the old count, which is under the new one unless the count is saturated (R111). -/
theorem stateInv_pushSeed (h : StateInv s) (hm : s.mode = .idle) (b : Byte) : StateInv (pushSeed b s) :=
  { h with
    busy_seed := fun hb => absurd hm hb
    seed_tail := fun k hk hle => by
      have hcnt : s.seedCnt.toNat < k := by
        rw [pushSeed_seedCnt] at hle
        by_cases hsat : s.seedCnt < Config.seedCntMax
        · rw [if_pos hsat] at hle; simp only [Config.seedCntMax] at hsat; bv_omega
        · rw [if_neg hsat] at hle; simp only [Config.seedCntMax] at hsat; bv_omega
      have htail := h.seed_tail k hk hcnt.le
      simp [show s.seedCnt.toNat < 32 by omega, hcnt.ne, htail] }

/-- `SEARCH` and `VERIFY` are refused with an error, or start an operation that has its target and its seed (R161,
R162). -/
theorem stateInv_startOperation (h : StateInv s) (hm : s.mode = .idle) (m : Mode) :
    StateInv (startOperation m s) := by
  have hbegin : StateInv (beginOperation s) := stateInv_beginOperation h
  obtain ⟨-, hs⟩ | ⟨-, hcnt, hs⟩ | ⟨ht, hcnt, hs⟩ := startOperation_cases m s
  · rw [hs]; exact stateInv_raise hbegin hm (errInfoLegal_invalidDifficulty (by decide))
  · rw [hs]; exact stateInv_raise hbegin hm (errInfoLegal_seedLengthMismatch hcnt)
  · rw [hs]
    exact { hbegin with
      busy_target := fun _ => ht
      busy_seed := fun _ => hcnt
      abort_busy := nofun
      busy_flags := fun _ => ⟨rfl, rfl, rfl, rfl, rfl⟩
      verify_fresh := fun _ => ⟨rfl, rfl⟩ }

theorem stateInv_idlePerform (h : StateInv s) (hm : s.mode = .idle) (i : Instr) : StateInv (idlePerform i s) := by
  cases i with
  | nop | abort => exact h
  | srst => exact stateInv_applyResetValues s
  | seedclr => exact stateInv_clearSeed h hm
  | seedb b => exact stateInv_pushSeed h hm b
  | settgt b => exact stateInv_constructTarget h hm b
  | settgtdef => exact stateInv_setTarget h hm _
  | search => exact stateInv_startOperation h hm .search
  | verify => exact stateInv_startOperation h hm .verify

theorem stateInv_busyPerform (h : StateInv s) (hb : s.mode ≠ .idle) (i : Instr) : StateInv (busyPerform i s) := by
  cases i with
  | nop => exact h
  | srst => exact stateInv_applyResetValues s
  | abort => exact stateInv_requestAbort h hb
  | seedclr | seedb | settgt | settgtdef | search | verify => exact stateInv_dropBusy h

/-! ### The engine -/

/-- A block that goes idle with no abort pending keeps the invariant. -/
theorem stateInv_setMode_idle (h : StateInv s) (ha : s.abortReq = false) : StateInv (setMode .idle s) :=
  { h with
    busy_target := fun hb => absurd rfl hb
    busy_seed := fun hb => absurd rfl hb
    abort_busy := fun hreq => absurd (hreq.symm.trans ha) nofun
    busy_flags := fun hb => absurd rfl hb
    verify_fresh := nofun }

theorem stateInv_setIters (h : StateInv s) (hm : s.mode = .idle) (n : Word64) : StateInv (setIters n s) :=
  { h with verify_fresh := fun hv => nomatch hm.symm.trans hv }

/-- A pending abort ends an operation that has not succeeded (R170). -/
theorem stateInv_takeAbort (h : StateInv s) (hb : s.mode ≠ .idle) : StateInv (takeAbort s) := by
  obtain ⟨hdone, -⟩ := h.busy_flags hb
  exact { h with
    busy_target := fun hb => absurd rfl hb
    busy_seed := fun hb => absurd rfl hb
    abort_busy := nofun
    busy_flags := fun hb => absurd rfl hb
    verify_fresh := nofun
    done_not_aborted := fun hda => nomatch hdone.symm.trans hda.1 }

/-- A search iteration changes only the nonce, the count and `NWRAP` before it hashes (R163). -/
theorem stateInv_hashing (h : StateInv s) (hm : s.mode = .search) : StateInv (hashing s) :=
  { h with verify_fresh := fun hv => nomatch hm.symm.trans hv }

/-- A candidate that meets a valid target is captured as a proof (R141, R164). -/
theorem proofValid_captured (ht : s.target ≠ 0) (hmeets : meets (candidateCount s) s.target = true) :
    ProofValid (captured s).result := by
  have hz : (captured s).result.lzc.toNat = candidateCount s := lzc_toNat _
  refine ⟨hz, ?_, ?_⟩
  · show 1 ≤ s.target.toNat
    bv_omega
  · rw [hz]; exact (meets_iff _ _).mp hmeets

/-- A success reported by a block that has gone idle: the result group is a proof, and `HINONCE` is set only for a nonce
over the threshold (R164, R165). -/
theorem stateInv_setDone_captured {hi : Bool} (h : StateInv s) (hm : s.mode = .idle) (ht : s.target ≠ 0)
    (hmeets : meets (candidateCount s) s.target = true) (hhinonce : s.status.hinonce = false)
    (habt : s.status.aborted = false) (hthr : hi = true → s64 s.nonce > Config.diagThreshold) :
    StateInv (setDone hi (captured s)) :=
  { h with
    busy_flags := fun hb => absurd hm hb
    result_valid := .inr (proofValid_captured ht hmeets)
    done_valid := fun _ => proofValid_captured ht hmeets
    done_not_aborted := fun hda => nomatch habt.symm.trans hda.2
    hinonce_high := fun hh => hthr (by simpa [captured, hhinonce] using hh) }

theorem stateInv_searchStep (h : StateInv s) (hm : s.mode = .search) : StateInv (searchStep s) := by
  have hb : s.mode ≠ .idle := by rw [hm]; nofun
  have hhash : StateInv (hashing s) := stateInv_hashing h hm
  obtain ⟨-, hs⟩ | ⟨ha, hmeets, hs⟩ | ⟨-, -, hs⟩ := searchStep_cases s
  · rw [hs]; exact stateInv_takeAbort h hb
  · obtain ⟨-, -, hhinonce, habt, -⟩ := h.busy_flags hb
    rw [hs]
    exact stateInv_setDone_captured (s := setMode .idle (hashing s)) (stateInv_setMode_idle hhash ha) rfl
      (h.busy_target hb) hmeets hhinonce habt of_decide_eq_true
  · rw [hs]; exact hhash

theorem stateInv_verifyStep (h : StateInv s) (hm : s.mode = .verify) : StateInv (verifyStep s) := by
  have hb : s.mode ≠ .idle := by rw [hm]; nofun
  obtain ⟨-, hs⟩ | ⟨ha, hmeets, hs⟩ | ⟨ha, hmeets, hs⟩ := verifyStep_cases s
  · rw [hs]; exact stateInv_takeAbort h hb
  · obtain ⟨-, -, hhinonce, habt, -⟩ := h.busy_flags hb
    rw [hs]
    exact stateInv_setDone_captured (s := setMode .idle (setIters 1 s))
      (stateInv_setIters (stateInv_setMode_idle h ha) rfl 1) rfl (h.busy_target hb) hmeets hhinonce habt nofun
  · rw [hs]
    exact stateInv_raise (stateInv_setIters (stateInv_setMode_idle h ha) rfl 1) rfl
      (errInfoLegal_insufficientLeadingZeros hmeets)

theorem stateInv_engineStep (h : StateInv s) : StateInv (engineStep s) := by
  cases hm : s.mode with
  | idle => rw [engineStep_idle hm]; exact h
  | search => rw [engineStep_search hm]; exact stateInv_searchStep h hm
  | verify => rw [engineStep_verify hm]; exact stateInv_verifyStep h hm

/-! ### The step -/

/-- Every effect keeps the invariant. -/
theorem stateInv_effect {t : State} {e : Event} (h : StateInv s) (heff : Effect s e t) : StateInv t := by
  cases heff with
  | engine => exact stateInv_engineStep h
  | reset => exact stateInv_applyResetValues s
  | read => exact stateInv_answerRead h _
  | idleCommand i hm => exact stateInv_idlePerform h hm i
  | busyCommand i hb => exact stateInv_busyPerform h hb i
  | illegal w _ _ hm => exact stateInv_raise h hm (errInfoLegal_illegalCommand _)
  | dropped => exact stateInv_dropBusy h
  | acknowledged v => exact stateInv_ackStatus h v
  | irqEnabled v => exact stateInv_setIrqEn h v
  | nonceLoWritten | nonceHiWritten => exact stateInv_setNonce h _
  | ignored => exact h

end

/-- Settles O32: a step is one effect, and every effect keeps the invariant. -/
theorem everyStepKeepsTheInvariant : Obligations.EveryStepKeepsTheInvariant := by
  intro s t h hstep
  obtain ⟨_, rest, -, heff⟩ := step_effect hstep
  exact stateInv_effect (stateInv_agenda h rest) heff

end Sys2Proof.Machine
end

section
/-! PROOFS. The statements about one step's event and about `STATUS` and `IRQ_EN` (10_state.md R21, R25, R27, R28;
20_memory.md R73; 70_reset_and_hazards.md R231). -/

namespace Sys2Proof.Machine

open Sys2Proof

theorem executeCommand_of_decode {w : Word} {i : Instr} (h : decode w = .ok i) (s : State) :
    executeCommand w s = exec i s := by
  simp only [executeCommand, h]

/-- Settles O5: the event is the write of `CMD`, which delivers its word. -/
theorem stepRunsTheWrittenCommand : Obligations.StepRunsTheWrittenCommand := by
  intro s w i rest ha hd
  have hcmd : s.agenda = cmdWrite w :: rest := ha
  rw [step_of_agenda_cons hcmd, performEvent_cmdWrite, executeCommand_of_decode hd]

/-- Settles O6, event by event. -/
theorem stepTakesEngineStepsAndResets : Obligations.StepTakesEngineStepsAndResets := by
  refine ⟨fun _ => step_of_agenda_nil, ?access, ?engine, ?reset, fun _ => engineStep_idle⟩
  case access => intro s a rest ha; rw [step_of_agenda_cons ha]; rfl
  case engine => intro s rest ha; rw [step_of_agenda_cons ha]; rfl
  case reset => intro s rest ha; rw [step_of_agenda_cons ha]; rfl

/-- A host write of `IRQ_EN` sets its six bits, in any mode (R28). -/
theorem hostAccess_irqEn (v : Word) (s : State) :
    hostAccess ⟨.w32, regOffset .irqEn, .write v⟩ s = .next (setIrqEn v s) := by
  have hw : (Access.mk .w32 (regOffset .irqEn) (.write v)).wellFormed = true := by
    simp only [Access.wellFormed]; decide
  simp only [hostAccess_of_wellFormed hw, memWrite, regAt_regOffset, writeReg]

/-- Settles O41. -/
theorem irqEnableKeepsBits1To6 : Obligations.IrqEnableKeepsBits1To6 := by
  refine ⟨fun s v => ⟨setIrqEn v s, hostAccess_irqEn v s, ?_, rfl⟩, by decide⟩
  calc memRead (setIrqEn v s) (regOffset .irqEn)
    _ = irqEnWord (setIrqEn v s) := memRead_regOffset _ _
    _ = v &&& 0x0000007E := statusBitsWord_statusBitsOf v

/-- Settles O42: bit 0 of `STATUS` is `BUSY`. -/
theorem busyReflectsMode : Obligations.BusyReflectsMode := by
  intro s
  have hread : memRead s 0x0C = statusWord s := memRead_regOffset s .status
  rw [hread, statusWord, statusBitsWord_bit0]
  exact decide_eq_true_iff

end Sys2Proof.Machine
end

section
/-! PROOFS. How a step ends: what stops it, what it leaves of the agenda, and what a host access leaves of a running
operation (20_memory.md R62, R66, R73; 44_search_engine.md R171; 70_reset_and_hazards.md R240). -/

namespace Sys2Proof.Machine

open Sys2Proof

/-! ### The fault -/

/-- The block does not answer an access of another width or alignment (R62). -/
theorem wellFormed_eq_false_iff (a : Access) :
    a.wellFormed = false ↔ a.width ≠ .w32 ∨ a.off.toNat % 4 ≠ 0 := by
  simp only [Access.wellFormed, Bool.and_eq_false_iff, beq_eq_false_iff_ne]

/-- An access the block answers does not stop the machine (R62). -/
theorem hostAccess_next {a : Access} (h : a.wellFormed = true) (s : State) : ∃ t, hostAccess a s = .next t := by
  rw [hostAccess_of_wellFormed h]
  cases a.kind with
  | read => exact ⟨_, rfl⟩
  | write v => exact memWrite_next a.off v s

/-- A step goes on, or it faults at a host access the block does not answer (R62; log entry 3). -/
theorem step_next_or_fault (s : State) :
    (∃ t, step s = .next t) ∨
      step s = .fault .busError ∧ ∃ a rest, s.agenda = .access a :: rest ∧ a.wellFormed = false := by
  cases ha : s.agenda with
  | nil => exact .inl ⟨_, step_of_agenda_nil ha⟩
  | cons e rest =>
    rw [step_of_agenda_cons ha]
    cases e with
    | engine => exact .inl ⟨_, rfl⟩
    | reset => exact .inl ⟨_, rfl⟩
    | access a =>
      cases hw : a.wellFormed with
      | true => exact .inl (hostAccess_next hw _)
      | false => exact .inr ⟨hostAccess_of_illFormed hw, a, rest, rfl, hw⟩

/-- Settles O37: of the events of a step only an ill-formed access stops it. -/
theorem onlyBadAccessesFault : Obligations.OnlyBadAccessesFault := by
  refine ⟨fun s => ⟨?faultIsBad, ?badFaults⟩, ?neverRefused⟩
  case faultIsBad =>
    rintro ⟨f, hf⟩
    obtain ⟨t, ht⟩ | ⟨-, a, rest, ha, hw⟩ := step_next_or_fault s
    · rw [ht] at hf; cases hf
    · exact ⟨a, rest, ha, (wellFormed_eq_false_iff a).mp hw⟩
  case badFaults =>
    rintro ⟨a, rest, ha, hbad⟩
    exact ⟨.busError, by
      rw [step_of_agenda_cons ha]
      exact hostAccess_of_illFormed ((wellFormed_eq_false_iff a).mpr hbad)⟩
  case neverRefused =>
    intro s r hr
    obtain ⟨t, ht⟩ | ⟨hf, -⟩ := step_next_or_fault s
    · rw [ht] at hr; cases hr
    · rw [hf] at hr; cases hr

/-! ### The agenda -/

@[simp] theorem engineStep_agenda (s : State) : (engineStep s).agenda = s.agenda := by
  cases hm : s.mode with
  | idle => rw [engineStep_idle hm]
  | search =>
    rw [engineStep_search hm]
    obtain ⟨-, h⟩ | ⟨-, -, h⟩ | ⟨-, -, h⟩ := searchStep_cases s <;> rw [h] <;> rfl
  | verify =>
    rw [engineStep_verify hm]
    obtain ⟨-, h⟩ | ⟨-, -, h⟩ | ⟨-, -, h⟩ := verifyStep_cases s <;> rw [h] <;> rfl

@[simp] theorem startOperation_agenda (m : Mode) (s : State) : (startOperation m s).agenda = s.agenda := by
  obtain ⟨-, h⟩ | ⟨-, -, h⟩ | ⟨-, -, h⟩ := startOperation_cases m s <;> rw [h] <;> rfl

@[simp] theorem constructTarget_agenda (b : Byte) (s : State) : (constructTarget b s).agenda = s.agenda := by
  obtain ⟨-, h⟩ | ⟨-, h⟩ := constructTarget_cases b s <;> rw [h] <;> rfl

@[simp] theorem idlePerform_agenda (i : Instr) (s : State) : (idlePerform i s).agenda = s.agenda := by
  cases i <;> simp [idlePerform]

@[simp] theorem busyPerform_agenda (i : Instr) (s : State) : (busyPerform i s).agenda = s.agenda := by
  cases i <;> simp [busyPerform]

/-- No event adds to or takes from the events still to come (log entry 1). -/
theorem effect_agenda {s t : State} {e : Event} (h : Effect s e t) : t.agenda = s.agenda := by
  cases h with
  | engine => exact engineStep_agenda s
  | idleCommand i => exact idlePerform_agenda i s
  | busyCommand i => exact busyPerform_agenda i s
  | reset | read | illegal | dropped | acknowledged | irqEnabled | nonceLoWritten | nonceHiWritten
  | ignored => rfl

/-- A step takes its one event off the agenda (log entry 1). -/
theorem step_agenda {s t : State} (h : step s = .next t) : t.agenda = s.agenda.tail := by
  obtain ⟨e, rest, ha | ⟨ha, rfl, -⟩, heff⟩ := step_effect h
  · rw [effect_agenda heff, ha, List.tail_cons]
  · rw [effect_agenda heff, ha, List.tail_nil]

/-- A step on a clean agenda goes on, and leaves it clean. -/
theorem step_of_agendaClean {s : State} (h : AgendaClean s) : ∃ t, step s = .next t ∧ AgendaClean t := by
  obtain ⟨t, ht⟩ | ⟨-, a, rest, ha, hw⟩ := step_next_or_fault s
  · refine ⟨t, ht, fun a hmem => h a ?_⟩
    rw [step_agenda ht] at hmem
    exact List.mem_of_mem_tail hmem
  · have hclean : a.wellFormed = true := h a (by rw [ha]; exact List.mem_cons_self)
    rw [hw] at hclean; cases hclean

/-- Settles O38, by induction on the number of steps: each keeps the agenda clean. -/
theorem cleanRunsNeverStop : Obligations.CleanRunsNeverStop := by
  intro s k
  induction k generalizing s with
  | zero => exact fun _ => ⟨s, rfl⟩
  | succ k ih =>
    intro hclean
    obtain ⟨u, hu, huclean⟩ := step_of_agendaClean hclean
    simp only [runSteps, hu]
    exact ih u huclean

/-! ### A running operation -/

/-- A busy block ignores or drops every command but `SRST` and `ABORT` (R97, R240). -/
theorem busyPerform_cases {i : Instr} (s : State) (hsrst : i ≠ .srst) (habort : i ≠ .abort) :
    busyPerform i s = s ∨ busyPerform i s = dropBusy s := by
  cases i with
  | nop => exact .inl rfl
  | srst => exact absurd rfl hsrst
  | abort => exact absurd rfl habort
  | _ => exact .inr rfl

/-- Settles O30: on a busy block an access is a read, a write of `STATUS` or `IRQ_EN`, or is dropped or ignored, unless
it delivers `SRST` or `ABORT`. -/
theorem hostAccessesLeaveTheOperationAlone : Obligations.HostAccessesLeaveTheOperationAlone := by
  intro s t a hbusy h hsrst habort
  have heff := hostAccess_effect h
  generalize he : Event.access a = e at heff
  cases heff with
  | busyCommand i =>
    have ha : a = ⟨.w32, 0x08, .write (encode i)⟩ := Event.access.inj he
    have hi : i ≠ .srst := by rintro rfl; exact hsrst ha
    have hi' : i ≠ .abort := by rintro rfl; exact habort ha
    obtain hp | hp := busyPerform_cases s hi hi' <;> rw [hp] <;> exact ⟨rfl, rfl, rfl, rfl, rfl, rfl, rfl, rfl, rfl⟩
  | idleCommand _ hm | illegal _ _ _ hm | nonceLoWritten _ hm | nonceHiWritten _ hm => exact absurd hm hbusy
  | engine | reset => cases he
  | read | dropped | acknowledged | irqEnabled | ignored => exact ⟨rfl, rfl, rfl, rfl, rfl, rfl, rfl, rfl, rfl⟩

end Sys2Proof.Machine
end

section
/-! PROOFS. The register window: the words a host reads as numbers, the writes, the addresses, and the loop that waits
for `BUSY` to read 0 (20_memory.md R60, R63 to R65, R74; 30_encoding.md R99). -/

namespace Sys2Proof.Machine

open Sys2Proof

/-! ### Words as numbers -/

/-- Two bit vectors side by side, as a number. -/
theorem append_toNat {m n : Nat} (x : BitVec m) (y : BitVec n) : (x ++ y).toNat = x.toNat * 2 ^ n + y.toNat := by
  rw [BitVec.toNat_append, ← Nat.shiftLeft_add_eq_or_of_lt y.isLt, Nat.shiftLeft_eq]

/-- The six bits of `STATUS` or `IRQ_EN` and bit 0, each by its weight (R63). -/
theorem statusBitsWord_toNat (b : StatusBits) (x : Bool) :
    (statusBitsWord b x).toNat = x.toNat + 2 * b.done.toNat + 4 * b.err.toNat + 8 * b.hinonce.toNat +
      16 * b.nwrap.toNat + 32 * b.busyviol.toNat + 64 * b.aborted.toNat := by
  simp only [statusBitsWord, bit1, append_toNat, BitVec.toNat_ofBool, BitVec.ofNat_eq_ofNat, BitVec.toNat_ofNat]
  omega

theorem errInfoWord_toNat (e : ErrInfo) :
    (errInfoWord e).toNat = e.code.toNat + 2 ^ 8 * e.exp.toNat + 2 ^ 16 * e.act.toNat := by
  simp only [errInfoWord, append_toNat, BitVec.ofNat_eq_ofNat, BitVec.toNat_ofNat]
  omega

theorem resInfoWord_toNat (r : ResultGroup) : (resInfoWord r).toNat = r.tgt.toNat + 2 ^ 16 * r.lzc.toNat := by
  simp only [resInfoWord, append_toNat, BitVec.ofNat_eq_ofNat, BitVec.toNat_ofNat]
  omega

/-- A word of a byte buffer: its first byte is the least significant (R67). -/
theorem laneWord_toNat (b : Bytes32) (w : Fin 8) :
    (laneWord b w).toNat = b[4 * w.val].toNat + 2 ^ 8 * b[4 * w.val + 1].toNat + 2 ^ 16 * b[4 * w.val + 2].toNat +
      2 ^ 24 * b[4 * w.val + 3].toNat := by
  simp only [laneWord, append_toNat]
  omega

theorem busy_toNat (s : State) : (busy s).toNat = if s.mode = .idle then 0 else 1 := by
  by_cases hm : s.mode = .idle <;> simp [busy, hm]

/-! ### Reads -/

/-- Every register lies in the lower half of the window (R20). -/
theorem regOffset_toNat_lt (r : Reg) : (regOffset r).toNat < 0x80 := by
  cases r with
  | seedW w => revert w; decide
  | resDigestW w => revert w; decide
  | _ => decide

/-- The upper half of the window is reserved (R20, R38). -/
theorem regAt_eq_none_of_le {off : BitVec 8} (h : 0x80 ≤ off.toNat) : regAt off = none := by
  cases hr : regAt off with
  | none => rfl
  | some r =>
    have hlt := regOffset_toNat_lt r
    rw [regOffset_of_regAt hr] at hlt
    omega

/-- An aligned 32-bit access is one the block answers (R62). -/
theorem wellFormed_of_aligned {off : BitVec 8} (h : off.toNat % 4 = 0) (k : AccessKind) :
    (Access.mk .w32 off k).wellFormed = true := by
  simp only [Access.wellFormed, h, beq_self_eq_true, Bool.and_self]

/-- Settles O39: each offset is a register's, whose word has its fields' weights, or is reserved. -/
theorem readsReturnTheRegisters : Obligations.ReadsReturnTheRegisters := by
  refine ⟨fun s off h => by rw [hostAccess_of_wellFormed (wellFormed_of_aligned h .read)]; rfl, fun s => ?_⟩
  have read : ∀ r, memRead s (regOffset r) = readReg s r := memRead_regOffset s
  refine ⟨read .id, read .cfg, read .cmd, ?status, ?irqEn, ?errInfo, ?nonceLo, ?nonceHi, ?target, ?seedCnt, ?itersLo,
    ?itersHi, ?resNonceLo, ?resNonceHi, ?resInfo, ?seed, ?digest, memRead_of_regAt_none (by decide),
    fun _ h => memRead_of_regAt_none (regAt_eq_none_of_le h)⟩
  case status => rw [← busy_toNat, ← statusBitsWord_toNat]; exact congrArg _ (read .status)
  case irqEn =>
    calc (memRead s (regOffset .irqEn)).toNat
      _ = (statusBitsWord s.irqEn false).toNat := congrArg _ (read .irqEn)
      _ = _ := by rw [statusBitsWord_toNat, Bool.toNat_false, Nat.zero_add]
  case errInfo => exact (congrArg _ (read .errInfo)).trans (errInfoWord_toNat _)
  case nonceLo => exact (congrArg _ (read .nonceLo)).trans (loHalf_toNat _)
  case nonceHi => exact (congrArg _ (read .nonceHi)).trans (hiHalf_toNat _)
  case target => exact (congrArg _ (read .target)).trans (BitVec.toNat_setWidth_of_le (by decide))
  case seedCnt => exact (congrArg _ (read .seedCnt)).trans (BitVec.toNat_setWidth_of_le (by decide))
  case itersLo => exact (congrArg _ (read .itersLo)).trans (loHalf_toNat _)
  case itersHi => exact (congrArg _ (read .itersHi)).trans (hiHalf_toNat _)
  case resNonceLo => exact (congrArg _ (read .resNonceLo)).trans (loHalf_toNat _)
  case resNonceHi => exact (congrArg _ (read .resNonceHi)).trans (hiHalf_toNat _)
  case resInfo => exact (congrArg _ (read .resInfo)).trans (resInfoWord_toNat _)
  case seed => exact fun w h => (congrArg _ (read (.seedW ⟨w, h⟩))).trans (laneWord_toNat _ _)
  case digest => exact fun w h => (congrArg _ (read (.resDigestW ⟨w, h⟩))).trans (laneWord_toNat _ _)

/-! ### Writes -/

@[simp] theorem memWrite_regOffset (r : Reg) (v : Word) (s : State) : memWrite (regOffset r) v s = writeReg r v s := by
  simp only [memWrite, regAt_regOffset]

/-- A write of `STATUS` clears exactly those of bits 1 to 6 that it has set (R26, R64). -/
theorem statusBitsWord_clearOnes (b : StatusBits) (x : Bool) (v : Word) (k : Nat) :
    (statusBitsWord (clearOnes b v) x).getLsbD k =
      ((statusBitsWord b x).getLsbD k && !(v.getLsbD k && decide (1 ≤ k ∧ k ≤ 6))) := by
  match k with
  | 0 => rw [statusBitsWord_bit0, statusBitsWord_bit0]; simp
  | 1 => rw [statusBitsWord_bit1, statusBitsWord_bit1]; simp [clearOnes]
  | 2 => rw [statusBitsWord_bit2, statusBitsWord_bit2]; simp [clearOnes]
  | 3 => rw [statusBitsWord_bit3, statusBitsWord_bit3]; simp [clearOnes]
  | 4 => rw [statusBitsWord_bit4, statusBitsWord_bit4]; simp [clearOnes]
  | 5 => rw [statusBitsWord_bit5, statusBitsWord_bit5]; simp [clearOnes]
  | 6 => rw [statusBitsWord_bit6, statusBitsWord_bit6]; simp [clearOnes]
  | k + 7 =>
    have hk : 7 ≤ k + 7 := Nat.le_add_left 7 k
    rw [statusBitsWord_high _ _ hk, statusBitsWord_high _ _ hk, Bool.false_and]

/-- Settles O40, offset by offset; `memWrite_cases` says that no other offset has an effect. -/
theorem writesActOnTheRegisters : Obligations.WritesActOnTheRegisters := by
  intro s v
  refine ⟨memWrite_regOffset .cmd v s, ⟨clearOnes s.status v, memWrite_regOffset .status v s, ?status⟩,
    ⟨statusBitsOf v, memWrite_regOffset .irqEn v s, ?irqEn⟩,
    ⟨withLo s.nonce v, withHi s.nonce v, withLo_toNat _ _, withHi_toNat _ _, memWrite_regOffset .nonceLo v s,
      memWrite_regOffset .nonceHi v s⟩,
    fun off h => hostAccess_of_wellFormed (wellFormed_of_aligned h _), ?others⟩
  case status =>
    intro k _
    have hbefore : memRead s 0x0C = statusWord s := memRead_regOffset s .status
    have hafter : memRead (ackStatus v s) 0x0C = statusWord (ackStatus v s) := memRead_regOffset _ .status
    rw [hbefore]
    exact (congrArg (·.getLsbD k) hafter).trans (statusBitsWord_clearOnes s.status (busy s) v k)
  case irqEn => exact (memRead_regOffset (setIrqEn v s) .irqEn).trans (statusBitsWord_statusBitsOf v)
  case others =>
    intro off _ hoff
    obtain ⟨t, ht⟩ := memWrite_next off v s
    obtain ⟨ho, -⟩ | ⟨ho, -⟩ | ⟨ho, -⟩ | ⟨ho, -⟩ | ⟨ho, -⟩ | rfl := memWrite_cases ht
    · exact absurd (.inl ho) hoff
    · exact absurd (.inr (.inl ho)) hoff
    · exact absurd (.inr (.inr (.inl ho))) hoff
    · exact absurd (.inr (.inr (.inr (.inl ho)))) hoff
    · exact absurd (.inr (.inr (.inr (.inr ho)))) hoff
    · exact ht

/-! ### The host's side -/

/-- Settles O45: the offset is the address less the base, and the window is 256 bytes long. -/
theorem windowDecodesItsOwnAddresses : Obligations.WindowDecodesItsOwnAddresses := by
  refine ⟨fun off w k => ?inside, fun addr w k hout => ?outside⟩
  case inside =>
    have hin : Config.pwseBase ≤ Config.pwseBase + off.toNat ∧
        Config.pwseBase + off.toNat < Config.pwseBase + Config.windowBytes :=
      ⟨Nat.le_add_right _ _, Nat.add_lt_add_left off.isLt _⟩
    rw [accessAt, if_pos hin, Nat.add_sub_cancel_left, BitVec.ofNat_toNat, BitVec.setWidth_eq]
  case outside =>
    rw [accessAt, if_neg]
    rintro ⟨hle, hlt⟩
    rw [Config.windowBytes] at hlt
    omega

/-- Settles O46, by induction on the reads: the loop ends at a read whose bit 0, `BUSY`, is clear. -/
theorem waitIdleEndsIdle : Obligations.WaitIdleEndsIdle := by
  intro gaps
  induction gaps with
  | nil =>
    intro s t h
    simp only [waitIdle, reduceCtorEq] at h
  | cons n gaps ih =>
    intro s t h
    simp only [waitIdle] at h
    split at h
    next => exact ih _ t h
    next hclear =>
      cases h
      refine ⟨?_, _, rfl, Bool.eq_false_iff.mpr hclear⟩
      by_contra hbusy
      exact hclear ((busyReflectsMode (engineSteps n s)).mpr hbusy)

end Sys2Proof.Machine
end

section
/-! PROOFS. The encoding: decoding inverts encoding, as numbers and as the opcode table, with the 519 legal words
counted (30_encoding.md R91 to R96, R101). -/

namespace Sys2Proof.Machine

open Sys2Proof

/-! ### Words as numbers -/

/-- A format N word as a number (R91). -/
theorem wordN_toNat (opc : Byte) : (wordN opc).toNat = opc.toNat := by
  rw [wordN, append_toNat, BitVec.ofNat_eq_ofNat, BitVec.toNat_ofNat, Nat.zero_mod, Nat.zero_mul, Nat.zero_add]

/-- A format I word as a number (R92). -/
theorem wordI_toNat (opc imm8 : Byte) : (wordI opc imm8).toNat = imm8.toNat * 256 + opc.toNat := by
  simp only [wordI, append_toNat, BitVec.ofNat_eq_ofNat, BitVec.toNat_ofNat]
  omega

/-- The opcode is the word's low byte, as a number (R90). -/
theorem opcOf_toNat (w : Word) : (opcOf w).toNat = w.toNat % 256 := by
  rw [opcOf, BitVec.extractLsb'_toNat, Nat.shiftRight_zero]

theorem opcOf_eq_iff {w : Word} {c : Byte} : opcOf w = c ↔ w.toNat % 256 = c.toNat := by
  rw [← BitVec.toNat_inj, opcOf_toNat]

/-- The upper 16 bits as a number: the reserved bits of format I (R92). -/
theorem extractLsb'_high_eq_zero_iff (w : Word) : w.extractLsb' 16 16 = 0 ↔ w.toNat / 65536 = 0 := by
  have hw := w.isLt
  rw [← BitVec.toNat_inj, BitVec.extractLsb'_toNat, Nat.shiftRight_eq_div_pow, BitVec.ofNat_eq_ofNat,
    BitVec.toNat_zero]
  omega

/-- Format N by numbers: the reserved bits are the word over 256 (R91). -/
theorem decodeN_eq (w : Word) (i : Instr) :
    decodeN w i = if w.toNat / 256 = 0 then .ok i else .error (.reservedBitSet (opcOf w)) := by
  have hw := w.isLt
  have hiff : w.extractLsb' 8 24 = 0 ↔ w.toNat / 256 = 0 := by
    rw [← BitVec.toNat_inj, BitVec.extractLsb'_toNat, Nat.shiftRight_eq_div_pow, BitVec.ofNat_eq_ofNat,
      BitVec.toNat_zero]
    omega
  simp only [decodeN, hiff]

/-- Format I by numbers: the reserved bits are the word over 65536, the operand is the byte below them (R92). -/
theorem decodeI_eq (w : Word) (f : Byte → Instr) :
    decodeI w f =
      if w.toNat / 65536 = 0 then .ok (f (BitVec.ofNat 8 (w.toNat / 256))) else .error (.reservedBitSet (opcOf w)) := by
  have himm : imm8Of w = BitVec.ofNat 8 (w.toNat / 256) := by
    rw [imm8Of, BitVec.extractLsb', Nat.shiftRight_eq_div_pow]
  simp only [decodeI, extractLsb'_high_eq_zero_iff, himm]

/-! ### Decoding a command's word -/

@[simp] theorem opcOf_wordN (opc : Byte) : opcOf (wordN opc) = opc := BitVec.extractLsb'_append_eq_right

@[simp] theorem opcOf_wordI (opc imm8 : Byte) : opcOf (wordI opc imm8) = opc := BitVec.extractLsb'_append_eq_right

/-- A format N word has no reserved bit set (R91). -/
theorem decodeN_wordN (opc : Byte) (i : Instr) : decodeN (wordN opc) i = .ok i := by
  rw [decodeN_eq, wordN_toNat, if_pos (Nat.div_eq_of_lt opc.isLt)]

/-- A format I word has no reserved bit set, and gives its operand back (R92). -/
theorem decodeI_wordI (opc imm8 : Byte) (f : Byte → Instr) : decodeI (wordI opc imm8) f = .ok (f imm8) := by
  have hopc := opc.isLt
  have himm := imm8.isLt
  have hreserved : (imm8.toNat * 256 + opc.toNat) / 65536 = 0 := by omega
  have hoperand : (imm8.toNat * 256 + opc.toNat) / 256 = imm8.toNat := by omega
  rw [decodeI_eq, wordI_toNat, if_pos hreserved, hoperand, BitVec.ofNat_toNat, BitVec.setWidth_eq]

/-- A command's word decodes to that command, row by row (R94). -/
theorem decode_encode (i : Instr) : decode (encode i) = .ok i := by
  cases i with
  | seedb b => simp [decode, encode, decodeI_wordI]
  | settgt b => simp [decode, encode, decodeI_wordI]
  | _ => simp [decode, encode, decodeN_wordN]

/-- Settles O1: `eq_encode_of_decode` one way, `decode_encode` the other. -/
theorem decodeIsTheInverseOfEncode : Obligations.DecodeIsTheInverseOfEncode := by
  refine fun w i => ⟨eq_encode_of_decode, ?_⟩
  rintro rfl
  exact decode_encode i

theorem encode_injective : Function.Injective encode := by
  intro i j h
  have hij : Except.ok i = Except.ok (ε := DecodeError) j := by rw [← decode_encode i, h, decode_encode j]
  exact Except.ok.inj hij

/-! ### The legal words, counted -/

/-- The commands of format N (R94). -/
def plainInstrs : List Instr := [.nop, .srst, .abort, .seedclr, .settgtdef, .search, .verify]

/-- Every value of `imm8` (R93). -/
def allBytes : List Byte := (List.finRange 256).map BitVec.ofFin

/-- Every command, once. -/
def allInstrs : List Instr := plainInstrs ++ (allBytes.map .seedb ++ allBytes.map .settgt)

theorem mem_allBytes (b : Byte) : b ∈ allBytes := List.mem_map.mpr ⟨b.toFin, List.mem_finRange _, rfl⟩

theorem allBytes_nodup : allBytes.Nodup :=
  (List.nodup_finRange 256).map (fun _ _ h => BitVec.ofFin.inj h)

theorem allBytes_length : allBytes.length = 256 := by rw [allBytes, List.length_map, List.length_finRange]

theorem mem_allInstrs (i : Instr) : i ∈ allInstrs := by
  cases i with
  | seedb b => simp [allInstrs, mem_allBytes]
  | settgt b => simp [allInstrs, mem_allBytes]
  | _ => simp [allInstrs, plainInstrs]

theorem allInstrs_nodup : allInstrs.Nodup := by
  have hseedb : (allBytes.map Instr.seedb).Nodup := allBytes_nodup.map (fun _ _ h => Instr.seedb.inj h)
  have hsettgt : (allBytes.map Instr.settgt).Nodup := allBytes_nodup.map (fun _ _ h => Instr.settgt.inj h)
  refine List.Nodup.append (by decide) (hseedb.append hsettgt ?operands) ?formats
  case operands => simp [List.Disjoint]
  case formats => simp [List.Disjoint, plainInstrs]

theorem allInstrs_length : allInstrs.length = 7 + 2 * 256 := by
  simp only [allInstrs, plainInstrs, List.length_append, List.length_map, allBytes_length, List.length_cons,
    List.length_nil]

/-- The legal words are the words of the 519 commands (R95). -/
theorem mem_map_encode_allInstrs (w : Word) : w ∈ allInstrs.map encode ↔ ∃ i, decode w = .ok i := by
  constructor
  · intro h
    obtain ⟨i, -, rfl⟩ := List.mem_map.mp h
    exact ⟨i, decode_encode i⟩
  · rintro ⟨i, h⟩
    exact List.mem_map.mpr ⟨i, mem_allInstrs i, (eq_encode_of_decode h).symm⟩

/-! ### The decoder by numbers -/

/-- The format N command of an opcode, if it is one (R94). -/
def plainInstr (opc : Nat) : Option Instr :=
  if opc = 0x00 then some .nop else if opc = 0x01 then some .srst else if opc = 0x02 then some .abort
  else if opc = 0x10 then some .seedclr else if opc = 0x21 then some .settgtdef
  else if opc = 0x30 then some .search else if opc = 0x31 then some .verify else none

theorem decode_of_plainInstr {w : Word} {i : Instr} (h : plainInstr (w.toNat % 256) = some i) :
    decode w = decodeN w i := by
  unfold plainInstr at h
  split_ifs at h with h00 h01 h02 h10 h21 h30 h31 <;> cases h
  · simp [decode, opcOf_eq_iff, h00]
  · simp [decode, opcOf_eq_iff, h01]
  · simp [decode, opcOf_eq_iff, h02]
  · simp [decode, opcOf_eq_iff, h10]
  · simp [decode, opcOf_eq_iff, h21]
  · simp [decode, opcOf_eq_iff, h30]
  · simp [decode, opcOf_eq_iff, h31]

theorem decode_of_seedb_opcode {w : Word} (h : w.toNat % 256 = 0x11) : decode w = decodeI w .seedb := by
  simp [decode, opcOf_eq_iff, h]

theorem decode_of_settgt_opcode {w : Word} (h : w.toNat % 256 = 0x20) : decode w = decodeI w .settgt := by
  simp [decode, opcOf_eq_iff, h]

theorem decode_of_unassigned {w : Word} (hplain : plainInstr (w.toNat % 256) = none)
    (hseedb : w.toNat % 256 ≠ 0x11) (hsettgt : w.toNat % 256 ≠ 0x20) :
    decode w = .error (.unassignedOpcode (opcOf w)) := by
  unfold plainInstr at hplain
  split_ifs at hplain with h00 h01 h02 h10 h21 h30 h31
  simp [decode, opcOf_eq_iff, *]

/-- Settles O2: the decoder by numbers, opcode by opcode; the legal words are those of the 519 commands. -/
theorem decodeIsTotalWith519LegalWords : Obligations.DecodeIsTotalWith519LegalWords := by
  refine ⟨fun w => ?total, allInstrs.map encode, allInstrs_nodup.map encode_injective, ?count,
    mem_map_encode_allInstrs⟩
  case count => rw [List.length_map, allInstrs_length]
  case total =>
    intro opc command
    have hcommand : plainInstr (w.toNat % 256) = command := rfl
    clear_value command
    cases command with
    | some i =>
      rw [decode_of_plainInstr hcommand, decodeN_eq]
      by_cases hr : w.toNat / 256 = 0 <;> simp [hr]
    | none =>
      by_cases hseedb : opc = 0x11
      · rw [decode_of_seedb_opcode hseedb, decodeI_eq]
        by_cases hr : w.toNat / 65536 = 0 <;> simp [hseedb, hr]
      by_cases hsettgt : opc = 0x20
      · rw [decode_of_settgt_opcode hsettgt, decodeI_eq]
        by_cases hr : w.toNat / 65536 = 0 <;> simp [hsettgt, hr]
      rw [if_neg (fun h => hseedb h.1), if_neg (fun h => hsettgt h.1)]
      exact ⟨_, decode_of_unassigned hcommand hseedb hsettgt⟩

/-! ### The opcode table -/

theorem accepts_iff (r : OpcodeRow) (w : Word) : r.accepts w = true ↔ w &&& r.mask = r.pattern := by
  rw [OpcodeRow.accepts, beq_iff_eq]

/-- Every row's mask covers the opcode byte (R94). -/
theorem opcOf_of_accepts {r : OpcodeRow} {w : Word} (hr : r ∈ opcodeTable) (h : r.accepts w = true) :
    opcOf w = opcOf r.pattern := by
  have hmask : ∀ r ∈ opcodeTable, opcOf r.mask = BitVec.allOnes 8 := by decide
  calc opcOf w
    _ = opcOf w &&& opcOf r.mask := by rw [hmask r hr, BitVec.and_allOnes]
    _ = opcOf (w &&& r.mask) := BitVec.extractLsb'_and.symm
    _ = opcOf r.pattern := congrArg opcOf ((accepts_iff r w).mp h)

/-- The rows have different opcodes (R94). -/
theorem opcodeTable_opcOf_injective :
    ∀ r ∈ opcodeTable, ∀ q ∈ opcodeTable, opcOf r.pattern = opcOf q.pattern → r = q := by decide

/-- A format N row accepts its pattern only (R91). -/
theorem eq_of_accepts_formatN {m : String} {w p : Word} (h : (OpcodeRow.mk m 0xFFFFFFFF p).accepts w = true) :
    w = p := by
  rw [accepts_iff] at h
  exact BitVec.and_allOnes.symm.trans h

/-- A format I row accepts its pattern with any operand (R92). -/
theorem eq_of_accepts_formatI {m : String} {w : Word} {opc : Byte}
    (h : (OpcodeRow.mk m 0xFFFF00FF (wordN opc)).accepts w = true) : w = wordI opc (imm8Of w) := by
  have hmasked : w &&& 0xFFFF00FF = wordN opc := (accepts_iff _ w).mp h
  have hopc : opcOf w = opc :=
    calc opcOf w
      _ = opcOf (w &&& 0xFFFF00FF) := by rw [opcOf, opcOf, BitVec.extractLsb'_and]; exact BitVec.and_allOnes.symm
      _ = opc := by rw [hmasked, opcOf_wordN]
  have hreserved : w.extractLsb' 16 16 = 0 :=
    calc w.extractLsb' 16 16
      _ = (w &&& 0xFFFF00FF).extractLsb' 16 16 := by rw [BitVec.extractLsb'_and]; exact BitVec.and_allOnes.symm
      _ = 0 := by
        rw [hmasked, extractLsb'_high_eq_zero_iff, wordN_toNat]
        exact Nat.div_eq_of_lt (opc.isLt.trans (by decide))
  rw [wordI, ← hopc, ← hreserved]
  exact eq_append_imm8Of_opcOf w

/-- Row by row, the words that a row accepts are its command's (R94). -/
theorem exists_eq_encode_of_accepts {r : OpcodeRow} {w : Word} (hr : r ∈ opcodeTable) (h : r.accepts w = true) :
    ∃ i, w = encode i := by
  simp only [opcodeTable, List.mem_cons, List.not_mem_nil, or_false] at hr
  obtain rfl | rfl | rfl | rfl | rfl | rfl | rfl | rfl | rfl := hr
  · exact ⟨.nop, eq_of_accepts_formatN h⟩
  · exact ⟨.srst, eq_of_accepts_formatN h⟩
  · exact ⟨.abort, eq_of_accepts_formatN h⟩
  · exact ⟨.seedclr, eq_of_accepts_formatN h⟩
  · exact ⟨.seedb (imm8Of w), eq_of_accepts_formatI (opc := 0x11) h⟩
  · exact ⟨.settgt (imm8Of w), eq_of_accepts_formatI (opc := 0x20) h⟩
  · exact ⟨.settgtdef, eq_of_accepts_formatN h⟩
  · exact ⟨.search, eq_of_accepts_formatN h⟩
  · exact ⟨.verify, eq_of_accepts_formatN h⟩

/-- A command's word is of its row of the opcode table (R94). -/
theorem wordLegal_encode (i : Instr) : wordLegal (encode i) = true := by
  cases i with
  | nop => exact Laws.EncodeLegal.nop
  | srst => exact Laws.EncodeLegal.srst
  | abort => exact Laws.EncodeLegal.abort
  | seedclr => exact Laws.EncodeLegal.seedclr
  | seedb b => exact Laws.EncodeLegal.seedb b
  | settgt b => exact Laws.EncodeLegal.settgt b
  | settgtdef => exact Laws.EncodeLegal.settgtdef
  | search => exact Laws.EncodeLegal.search
  | verify => exact Laws.EncodeLegal.verify

/-- Settles O3: an accepted word is a command's; a word's opcode byte is that of any row it is of, and the rows' opcodes
differ. -/
theorem legalWordsAreTheOpcodeTables : Obligations.LegalWordsAreTheOpcodeTables := by
  refine ⟨fun w => ⟨?decodedIsLegal, ?legalDecodes⟩, fun w r q hr hq hrw hqw => ?disjoint⟩
  case decodedIsLegal =>
    rintro ⟨i, h⟩
    rw [eq_encode_of_decode h]
    exact wordLegal_encode i
  case legalDecodes =>
    intro h
    obtain ⟨r, hr, hrw⟩ := List.any_eq_true.mp h
    obtain ⟨i, rfl⟩ := exists_eq_encode_of_accepts hr hrw
    exact ⟨i, decode_encode i⟩
  case disjoint =>
    exact opcodeTable_opcOf_injective r hr q hq ((opcOf_of_accepts hr hrw).symm.trans (opcOf_of_accepts hq hqw))

/-! ### The examples -/

/-- Settles O4: a word of R101 decodes to the command that it is the word of. -/
theorem encodingExamples : Obligations.EncodingExamples := by
  refine ⟨rfl, rfl, rfl, rfl, rfl, rfl, decode_encode (.seedb 0x3f), decode_encode (.settgt 22),
    decode_encode (.settgt 0), decode_encode .settgtdef, decode_encode .search, decode_encode .verify,
    ⟨.reservedBitSet 0x30, ?searchBit8⟩, ⟨.unassignedOpcode 0x40, ?opcode40⟩⟩
  case searchBit8 => decide
  case opcode40 => decide

end Sys2Proof.Machine
end

section
/-! PROOFS. The delivery of a command word to `CMD` (30_encoding.md R97; 60_exceptions.md R207;
70_reset_and_hazards.md R240). -/

namespace Sys2Proof.Machine

open Sys2Proof

/-- A busy block drops every command but the three control commands (R97, R240). -/
theorem busyPerform_eq_dropBusy {i : Instr} (s : State) (h : ¬ (i = .nop ∨ i = .srst ∨ i = .abort)) :
    busyPerform i s = dropBusy s := by
  cases i with
  | nop => exact absurd (.inl rfl) h
  | srst => exact absurd (.inr (.inl rfl)) h
  | abort => exact absurd (.inr (.inr rfl)) h
  | _ => rfl

/-- The `ACT` field of IllegalCommand is the opcode byte (R207). -/
theorem opcOf_setWidth_nine (w : Word) : (opcOf w).setWidth 9 = BitVec.ofNat 9 (w.toNat % 256) := by
  rw [← opcOf_toNat, BitVec.ofNat_toNat]

theorem executeCommand_of_illegal {w : Word} {e : DecodeError} (h : decode w = .error e) (s : State) :
    executeCommand w s = .next (illegalWord w s) := by
  simp only [executeCommand, h]

/-- Settles O7: by what the word decodes to, then by the mode. -/
theorem commandDeliveryOrder : Obligations.CommandDeliveryOrder := by
  intro w s
  refine ⟨performEvent_cmdWrite w s, fun i hd _ => executeCommand_of_decode hd s, fun i hd hi => ?command, ?illegal⟩
  case command =>
    rw [executeCommand_of_decode hd]
    by_cases hm : s.mode = .idle
    · rw [if_neg (not_not_intro hm)]
    · rw [if_pos hm, exec_busy i hm, busyPerform_eq_dropBusy s hi, dropBusy]
  case illegal =>
    rintro ⟨e, hd⟩
    rw [executeCommand_of_illegal hd, illegalWord]
    by_cases hm : s.mode = .idle
    · rw [if_pos hm, if_neg (not_not_intro hm), raise, errInfoOf, opcOf_setWidth_nine]
    · rw [if_neg hm, if_pos hm, dropBusy]

end Sys2Proof.Machine
end

section
/-! PROOFS. The host assembler: command statements and `ldseed` (30_encoding.md R99, R100). -/

namespace Sys2Proof.Machine

open Sys2Proof

/-! ### Command statements -/

theorem assemble_of_wellFormed {a : AsmStmt} (h : a.wellFormed = true) : assemble a = some (asmExpand a) := by
  rw [assemble, if_pos h]

theorem assemble_of_illFormed {a : AsmStmt} (h : a.wellFormed = false) : assemble a = none := by
  rw [assemble, if_neg (Bool.eq_false_iff.mp h)]

theorem imm8Ok_iff (n : Int) : imm8Ok n = true ↔ 0 ≤ n ∧ n ≤ 255 := by
  simp only [imm8Ok, Bool.and_eq_true, decide_eq_true_iff]
  omega

/-- The word of an operand in range holds that number: nothing of it is cut off (R99). -/
theorem wordI_ofInt {n : Int} (h : 0 ≤ n ∧ n ≤ 255) (opc : Byte) :
    wordI opc (BitVec.ofInt 8 n) = BitVec.ofNat 32 (n.toNat * 256 + opc.toNat) := by
  obtain ⟨k, rfl⟩ := Int.eq_ofNat_of_zero_le h.1
  have hopc := opc.isLt
  apply BitVec.eq_of_toNat_eq
  rw [wordI_toNat, BitVec.ofInt_natCast, BitVec.toNat_ofNat, BitVec.toNat_ofNat, Int.toNat_natCast]
  omega

/-- A statement with an `imm8` assembles to the write of its word, or, out of range, is an error (R99). -/
theorem assemble_imm8 {a : AsmStmt} {n : Int} {opc : Byte} (hok : a.wellFormed = imm8Ok n)
    (hexp : asmExpand a = [asmWr .cmd (wordI opc (BitVec.ofInt 8 n))]) :
    assemble a =
      if 0 ≤ n ∧ n ≤ 255 then some [.memWrite (Config.pwseBase + 8) (BitVec.ofNat 32 (n.toNat * 256 + opc.toNat))]
      else none := by
  by_cases h : 0 ≤ n ∧ n ≤ 255
  · rw [if_pos h, assemble_of_wellFormed (hok.trans ((imm8Ok_iff n).mpr h)), hexp, wordI_ofInt h]
    rfl
  · rw [if_neg h, assemble_of_illFormed]
    rw [hok, Bool.eq_false_iff]
    exact mt (imm8Ok_iff n).mp h

/-- Settles O48: `CMD` stands at offset 8 of the window, which R60 decodes. -/
theorem commandStatementsAssembleToOneWrite : Obligations.CommandStatementsAssembleToOneWrite := by
  unfold Obligations.CommandStatementsAssembleToOneWrite
  intro write
  refine ⟨fun n => ⟨assemble_imm8 (opc := 0x11) rfl rfl, assemble_imm8 (opc := 0x20) rfl rfl⟩,
    rfl, rfl, rfl, rfl, rfl, rfl, rfl, fun w => ?_⟩
  obtain ⟨hinside, -⟩ := windowDecodesItsOwnAddresses
  have haddr : accessAt (Config.pwseBase + 8) .w32 (.write w) = some ⟨.w32, 8, .write w⟩ := hinside 8 .w32 (.write w)
  calc hostOpEvent (write w)
    _ = (accessAt (Config.pwseBase + 8) .w32 (.write w)).map .access := rfl
    _ = some (cmdWrite w) := by rw [haddr]; rfl

/-! ### `ldseed` -/

/-- Two digits make a byte. -/
theorem hexPairs_length : ∀ digits : List (BitVec 4), (hexPairs digits).length = digits.length / 2
  | [] => rfl
  | [_] => by simp [hexPairs]
  | _ :: _ :: rest => by
    simp only [hexPairs, List.length_cons, hexPairs_length rest]
    omega

/-- Byte `k` is the `k`-th pair of digits, the first digit high (R100). -/
theorem hexPairs_getElem? : ∀ (digits : List (BitVec 4)) (k : Nat),
    (hexPairs digits)[k]? = (digits[2 * k]?).bind (fun hi => (digits[2 * k + 1]?).map (fun lo => hi ++ lo))
  | [], _ => rfl
  | [_], _ => by simp [hexPairs]
  | _ :: _ :: _, 0 => rfl
  | _ :: _ :: rest, k + 1 => hexPairs_getElem? rest k

/-- Settles O49: the bytes are the pairs of digits. -/
theorem ldseedExpansion : Obligations.LdseedExpansion := by
  refine fun digits => ⟨fun h => ?wrongLength, fun h => ?expansion⟩
  case wrongLength => exact assemble_of_illFormed (beq_eq_false_iff_ne.mpr h)
  case expansion =>
    have hlen : (hexPairs digits).length = 32 := by rw [hexPairs_length, h]
    refine ⟨⟨(hexPairs digits).toArray, hlen⟩, fun k hk => ?bytes, assemble_of_wellFormed (beq_iff_eq.mpr h)⟩
    case bytes =>
      have hbyte : (hexPairs digits)[k]? = some (hexPairs digits)[k] := List.getElem?_eq_getElem (hlen ▸ hk)
      calc some (hexPairs digits)[k].toNat
        _ = ((hexPairs digits)[k]?).map BitVec.toNat := by rw [hbyte, Option.map_some]
        _ = _ := by
          rw [hexPairs_getElem?, Option.map_bind]
          simp only [Function.comp_def, Option.map_map, append_toNat, Nat.reducePow]

end Sys2Proof.Machine
end

section
/-! PROOFS. Seed loading: what `SEEDCLR` and `SEEDB` do, and a whole load of 32 bytes (40_seed_load.md R110 to R112). -/

namespace Sys2Proof.Machine

open Sys2Proof

/-! ### One command -/

/-- Settles O13, in each mode. -/
theorem seedclrClearsTheSeed : Obligations.SeedclrClearsTheSeed :=
  ⟨rfl, fun _ hidle => exec_idle .seedclr hidle, fun _ hbusy => exec_busy .seedclr hbusy⟩

/-- A push writes the byte at the count; from 32 on that is no place in the buffer (R111). -/
theorem pushSeed_seed_getElem (b : Byte) (s : State) {k : Nat} (hk : k < 32) :
    (pushSeed b s).seed[k] = if k = s.seedCnt.toNat then b else s.seed[k] := by
  by_cases hroom : s.seedCnt.toNat < 32
  · simp only [pushSeed_seed, if_pos hroom, Vector.getElem_setIfInBounds, eq_comm]
  · have hne : k ≠ s.seedCnt.toNat := by omega
    simp only [pushSeed_seed, if_neg hroom, if_neg hne]

/-- A push is counted, up to 255 (R111). -/
theorem pushSeed_seedCnt_toNat (b : Byte) (s : State) :
    (pushSeed b s).seedCnt.toNat = min 255 (s.seedCnt.toNat + 1) := by
  rw [pushSeed_seedCnt, Config.seedCntMax]
  by_cases hroom : s.seedCnt < 255
  · rw [if_pos hroom]; bv_omega
  · rw [if_neg hroom]; bv_omega

/-- Settles O14: the new seed and count are those of `pushSeed`. -/
theorem seedbPushesOneByte : Obligations.SeedbPushesOneByte :=
  ⟨wordI_toNat 0x11, fun s b hidle => ⟨(pushSeed b s).seed, (pushSeed b s).seedCnt,
    exec_idle (.seedb b) hidle, pushSeed_seedCnt_toNat b s, fun _ => pushSeed_seed_getElem b s⟩⟩

/-! ### A whole load -/

/-- An idle block performs the command that the host writes next (R25, R97). -/
theorem step_of_idle_command {s : State} {i : Instr} {rest : List Event} (hidle : s.mode = .idle)
    (ha : s.agenda = cmdWrite (encode i) :: rest) : step s = .next (idlePerform i { s with agenda := rest }) := by
  rw [step_of_agenda_cons ha, performEvent_cmdWrite, executeCommand_of_decode (decode_encode i)]
  exact exec_idle i hidle

theorem runSteps_succ_of_step {s t : State} (k : Nat) (h : step s = .next t) :
    runSteps (k + 1) s = runSteps k t := by
  simp only [runSteps, h]

/-- The buffer that holds the first `n` of `bytes` and is 0 from there on. -/
def seedPrefix (bytes : Bytes32) (n : Nat) : Bytes32 := Vector.ofFn fun k => if k.val < n then bytes[k] else 0

@[simp] theorem seedPrefix_getElem (bytes : Bytes32) (n : Nat) {k : Nat} (hk : k < 32) :
    (seedPrefix bytes n)[k] = if k < n then bytes[k] else 0 := by
  simp only [seedPrefix, Vector.getElem_ofFn, Fin.getElem_fin]

theorem seedPrefix_zero (bytes : Bytes32) : seedPrefix bytes 0 = Vector.replicate 32 0 := by
  ext k hk
  simp

theorem seedPrefix_all (bytes : Bytes32) : seedPrefix bytes 32 = bytes := by
  ext k hk
  simp [hk]

/-- The host's pushes of all but the first `n` of `bytes`. -/
def seedPushes (bytes : Bytes32) (n : Nat) : List Event :=
  (bytes.toList.drop n).map fun b => cmdWrite (encode (.seedb b))

theorem seedPushes_of_lt (bytes : Bytes32) {n : Nat} (hn : n < 32) :
    seedPushes bytes n = cmdWrite (encode (.seedb bytes[n])) :: seedPushes bytes (n + 1) := by
  rw [seedPushes, List.drop_eq_getElem_cons (by simpa using hn), Vector.getElem_toList, List.map_cons, seedPushes]

theorem seedPushes_all (bytes : Bytes32) : seedPushes bytes 32 = [] := by
  rw [seedPushes, List.drop_eq_nil_of_le (by simp), List.map_nil]

/-- The state in the middle of a load that began in `s`: the first `n` of `bytes` are pushed, the host's pushes of the
others are to come. -/
def partlyLoaded (bytes : Bytes32) (n : Nat) (s : State) : State :=
  { s with
    seed := seedPrefix bytes n
    seedCnt := BitVec.ofNat 8 n
    agenda := seedPushes bytes n }

/-- The `n`-th push takes the next byte to its place (R111). -/
theorem pushSeed_seedPrefix {bytes : Bytes32} {n : Nat} (hn : n < 32) {s : State} (hseed : s.seed = seedPrefix bytes n)
    (hcnt : s.seedCnt = BitVec.ofNat 8 n) :
    pushSeed bytes[n] s = { s with seed := seedPrefix bytes (n + 1), seedCnt := BitVec.ofNat 8 (n + 1) } := by
  have hpos : s.seedCnt.toNat = n := by rw [hcnt, BitVec.toNat_ofNat]; omega
  have hnewseed : (pushSeed bytes[n] s).seed = seedPrefix bytes (n + 1) := by
    ext k hk
    rw [pushSeed_seed_getElem _ _ hk, hpos, hseed]
    obtain hlt | rfl | hgt := Nat.lt_trichotomy k n
    · simp [hlt, hlt.ne, hlt.trans (Nat.lt_succ_self n)]
    · simp
    · simp [hgt.ne', hgt.not_gt, Nat.not_lt.mpr (Nat.succ_le_of_lt hgt)]
  have hnewcnt : (pushSeed bytes[n] s).seedCnt = BitVec.ofNat 8 (n + 1) := by
    apply BitVec.eq_of_toNat_eq
    rw [pushSeed_seedCnt_toNat, hpos, BitVec.toNat_ofNat]
    omega
  rw [← hnewseed, ← hnewcnt]
  rfl

/-- The write of `SEEDCLR` begins a load (R110). -/
theorem step_seedclr_partlyLoaded {s : State} {bytes : Bytes32} (hidle : s.mode = .idle)
    (ha : s.agenda = cmdWrite (encode .seedclr) :: seedPushes bytes 0) :
    step s = .next (partlyLoaded bytes 0 s) := by
  rw [step_of_idle_command hidle ha, partlyLoaded, seedPrefix_zero]
  rfl

/-- Each write of a `SEEDB` takes the load one byte further (R111). -/
theorem step_partlyLoaded {s : State} {bytes : Bytes32} {n : Nat} (hidle : s.mode = .idle) (hn : n < 32) :
    step (partlyLoaded bytes n s) = .next (partlyLoaded bytes (n + 1) s) := by
  have ha : (partlyLoaded bytes n s).agenda = cmdWrite (encode (.seedb bytes[n])) :: seedPushes bytes (n + 1) :=
    seedPushes_of_lt bytes hn
  have hpush : pushSeed bytes[n] { partlyLoaded bytes n s with agenda := seedPushes bytes (n + 1) } =
      partlyLoaded bytes (n + 1) s := pushSeed_seedPrefix hn rfl rfl
  rw [step_of_idle_command (s := partlyLoaded bytes n s) hidle ha, idlePerform, hpush]

/-- By induction on the pushes: each takes one byte of the load. -/
theorem runSteps_partlyLoaded {s : State} {bytes : Bytes32} (hidle : s.mode = .idle) (k : Nat) :
    ∀ n, n + k ≤ 32 → runSteps k (partlyLoaded bytes n s) = .next (partlyLoaded bytes (n + k) s) := by
  induction k with
  | zero => exact fun _ _ => rfl
  | succ k ih =>
    intro n hn
    rw [runSteps_succ_of_step k (step_partlyLoaded hidle (by omega)), ih (n + 1) (by omega), Nat.add_right_comm,
      Nat.add_assoc]

/-- Settles O47: the run goes through the states of the load, from no byte to all 32. -/
theorem seedLoadKeepsPushOrder : Obligations.SeedLoadKeepsPushOrder := by
  intro s bytes hidle ha
  calc runSteps 33 s
    _ = runSteps 32 (partlyLoaded bytes 0 s) := runSteps_succ_of_step 32 (step_seedclr_partlyLoaded hidle ha)
    _ = .next (partlyLoaded bytes 32 s) := runSteps_partlyLoaded hidle 32 0 (by omega)
    _ = .next { s with seed := bytes, seedCnt := 32, agenda := [] } := by
      rw [partlyLoaded, seedPrefix_all, seedPushes_all]; rfl

end Sys2Proof.Machine
end

section
/-! PROOFS. The hasher: the candidate's message, the padding of SHA-256 and its check value (41_hasher.md R120, R121,
R125, R128). -/

namespace Sys2Proof.Machine

open Sys2Proof

/-! ### The candidate's message -/

/-- Byte `j` of the nonce is its `j`-th digit in base 256, the lowest first (R121). -/
theorem le64_getElem? (n : Word64) {j : Nat} (hj : j < 8) :
    (le64 n)[j]? = some (BitVec.ofNat 8 (n.toNat / 256 ^ j)) := by
  have hslice : (le64 n)[j]? = some (n.extractLsb' (8 * j) 8) := by
    interval_cases j <;> rfl
  rw [hslice, BitVec.extractLsb', Nat.shiftRight_eq_div_pow, Nat.pow_mul]

/-- Settles O50: the message is the seed's bytes followed by the nonce's. -/
theorem candidateMessageLayout : Obligations.CandidateMessageLayout := by
  intro seed n
  refine ⟨candidateMsg_length seed n, fun k hk => ?_, fun j hj => ?_⟩
  · rw [candidateMsg, List.getElem?_append_left (by simpa using hk)]
    simp [hk]
  · rw [candidateMsg, List.getElem?_append_right (by simp)]
    simpa using le64_getElem? n hj

/-! ### The padding -/

/-- The zero bytes fill the last block up to its length field (R125). -/
theorem padZeros_fills (len : Nat) : (len + 1 + padZeros len + 8) % 64 = 0 := by
  unfold padZeros; omega

/-- No smaller number of zero bytes does (R125). -/
theorem padZeros_le_of_fills {len j : Nat} (h : (len + 1 + j + 8) % 64 = 0) : padZeros len ≤ j := by
  unfold padZeros; omega

/-- A word's bytes, read on as base-256 digits after a number, append the word to it (R126). -/
theorem foldl_be32 (w : Word) (a : Nat) :
    (be32 w).foldl (fun a b => 256 * a + b.toNat) a = 2 ^ 32 * a + w.toNat := by
  have := w.isLt
  simp only [be32, List.foldl_cons, List.foldl_nil, BitVec.extractLsb'_toNat, Nat.shiftRight_eq_div_pow]
  omega

/-- The length field is the number modulo 2^64, most significant byte first (R125, log entry 16). -/
theorem foldl_be64 (x : Nat) : (be64 x).foldl (fun a b => 256 * a + b.toNat) 0 = x % 2 ^ 64 := by
  rw [be64, List.foldl_append, foldl_be32, foldl_be32]
  simp only [BitVec.extractLsb'_toNat, Nat.shiftRight_eq_div_pow, BitVec.toNat_ofNat]
  omega

/-- Settles O51: the message's bit length stays below 2^64, so the length field holds all of it; the two fixed lengths are
the padding's definition evaluated. -/
theorem paddingFillsWholeBlocks : Obligations.PaddingFillsWholeBlocks := by
  refine ⟨fun m hm => ⟨padZeros m.length, be64 (8 * m.length), rfl, padZeros_fills _, fun _ => padZeros_le_of_fills,
    be64_length _, ?_⟩, fun m hm => ?_, fun m hm => ?_⟩
  · rw [foldl_be64, Nat.mod_eq_of_lt (by omega)]
  · rw [shaPad, hm]; rfl
  · rw [shaPad, hm]; rfl

/-! ### The check value -/

/-- Settles O52: the kernel runs the one compression that the padded message takes (R128). -/
theorem sha256OfAbc : Obligations.Sha256OfAbc := by
  unfold Obligations.Sha256OfAbc
  decide +kernel

end Sys2Proof.Machine
end

section
/-! PROOFS. The difficulty target: what `SETTGT` and `SETTGTDEF` write, that no running operation's target or seed
changes, and the comparator's corner cases (42_difficulty_target.md R140, R142, R143, R145; 44_search_engine.md R162). -/

namespace Sys2Proof.Machine

open Sys2Proof

/-! ### The target commands -/

/-- A request of at least the minimum is written as it is (R140). -/
theorem constructTarget_of_valid {b : Byte} (hb : 1 ≤ b.toNat) (s : State) : constructTarget b s = setTarget b s := by
  obtain ⟨hlow, -⟩ | ⟨-, h⟩ := constructTarget_cases b s
  · rw [Config.minTarget] at hlow; bv_omega
  · exact h

/-- Settles O15. -/
theorem settgtWritesAValidTarget : Obligations.SettgtWritesAValidTarget := by
  intro s b hidle hb
  rw [exec_idle (.settgt b) hidle, idlePerform, constructTarget_of_valid hb, setTarget]

/-- Settles O16, in each mode. -/
theorem settgtdefWritesThePreset : Obligations.SettgtdefWritesThePreset :=
  ⟨rfl, fun _ hidle => exec_idle .settgtdef hidle, fun _ hbusy => exec_busy .settgtdef hbusy⟩

/-! ### A running operation's target and seed -/

/-- `t` has the target, the seed and the count of `s`: what a running operation works on (R143, R162). -/
def OperandsKept (s t : State) : Prop := t.target = s.target ∧ t.seed = s.seed ∧ t.seedCnt = s.seedCnt

/-- The engine reads the target and the seed and writes neither (R163, R182). -/
theorem engineStep_operandsKept (s : State) : OperandsKept s (engineStep s) := by
  cases hm : s.mode with
  | idle => rw [engineStep_idle hm]; exact ⟨rfl, rfl, rfl⟩
  | search =>
    rw [engineStep_search hm]
    obtain ⟨-, h⟩ | ⟨-, -, h⟩ | ⟨-, -, h⟩ := searchStep_cases s <;> rw [h] <;> exact ⟨rfl, rfl, rfl⟩
  | verify =>
    rw [engineStep_verify hm]
    obtain ⟨-, h⟩ | ⟨-, -, h⟩ | ⟨-, -, h⟩ := verifyStep_cases s <;> rw [h] <;> exact ⟨rfl, rfl, rfl⟩

/-- No command of a busy block but a reset writes the target or the seed (R143, R162). -/
theorem busyPerform_operandsKept (i : Instr) (s : State) :
    OperandsKept s (busyPerform i s) ∨ busyPerform i s = applyResetValues s := by
  cases i with
  | srst => exact .inr rfl
  | _ => exact .inl ⟨rfl, rfl, rfl⟩

/-- Settles O35: of the effects that a busy block admits only a reset reaches the target or the seed. -/
theorem targetAndSeedAreFixedWhileBusy : Obligations.TargetAndSeedAreFixedWhileBusy := by
  intro s t h hbusy
  obtain ⟨e, rest, -, heff⟩ := step_effect h
  cases heff with
  | engine => exact .inl (engineStep_operandsKept _)
  | reset => exact .inr rfl
  | busyCommand i => exact (busyPerform_operandsKept i _).imp_right fun hr => by rw [hr]; rfl
  | idleCommand _ hm | illegal _ _ _ hm | nonceLoWritten _ hm | nonceHiWritten _ hm => exact absurd hm hbusy
  | read | dropped | acknowledged | irqEnabled | ignored => exact .inl ⟨rfl, rfl, rfl⟩

/-! ### The comparator -/

/-- Settles O56: a target is one byte, so 256 is over every one of them, and the comparator is the order of numbers. -/
theorem comparatorIsMonotone : Obligations.ComparatorIsMonotone := by
  refine ⟨fun t ht => ⟨?every, (meets_false_iff 0 t).mpr ht⟩, fun z t t' hmeets hle => ?lower⟩
  case every => exact (meets_iff 256 t).mpr t.isLt.le
  case lower => exact (meets_iff z t').mpr (hle.trans ((meets_iff z t).mp hmeets))

end Sys2Proof.Machine
end

section
/-! PROOFS. The leading-zero counter: the table of `clz8`, the byte that decides the count, and the count as that of a
256-bit number (43_leading_zero_counter.md R150 to R153). -/

namespace Sys2Proof.Machine

open Sys2Proof

/-! ### One byte -/

/-- A byte has bits 7 down to 0: the leading zeros and the place of the highest 1 add up to 7 (R150). -/
theorem clz8_add_log2 {b : Byte} (hb : b ≠ 0) : clz8 b + Nat.log2 b.toNat = 7 := by
  have hlog : Nat.log2 b.toNat < 8 := (Nat.log2_lt (BitVec.toNat_ne_iff_ne.mpr hb)).mpr b.isLt
  rw [clz8, if_neg hb]
  omega

/-- The bytes with highest 1 at bit `p` have `7 - p` leading zeros: one row of the table (R151). -/
theorem clz8_eq_of_highest_bit {b : Byte} (p : Nat) (hlo : 2 ^ p ≤ b.toNat) (hhi : b.toNat < 2 ^ (p + 1)) :
    clz8 b = 7 - p := by
  have hpos : b.toNat ≠ 0 := (Nat.two_pow_pos p |>.trans_le hlo).ne'
  have hb : b ≠ 0 := fun h => hpos (by rw [h]; rfl)
  rw [clz8, if_neg hb, (Nat.log2_eq_iff hpos).mpr ⟨hlo, hhi⟩]

/-- Settles O54, row by row: each row but the first holds the bytes with one place of the highest 1. -/
theorem clz8Table : Obligations.Clz8Table := by
  intro b
  split_ifs with h00 h01 h03 h07 h0F h1F h3F h7F
  · rw [h00]; rfl
  · rw [h01]; rfl
  · exact clz8_eq_of_highest_bit 1 (by bv_omega) (by omega)
  · exact clz8_eq_of_highest_bit 2 (by omega) (by omega)
  · exact clz8_eq_of_highest_bit 3 (by omega) (by omega)
  · exact clz8_eq_of_highest_bit 4 (by omega) (by omega)
  · exact clz8_eq_of_highest_bit 5 (by omega) (by omega)
  · exact clz8_eq_of_highest_bit 6 (by omega) (by omega)
  · exact clz8_eq_of_highest_bit 7 (by omega) b.isLt

/-! ### The scan -/

theorem lzcFrom_cons_zero (i : Nat) (rest : Bytes) : lzcFrom i (0 :: rest) = lzcFrom (i + 1) rest := if_pos rfl

theorem lzcFrom_cons_of_ne {b : Byte} (hb : b ≠ 0) (i : Nat) (rest : Bytes) :
    lzcFrom i (b :: rest) = 8 * i + clz8 b := if_neg hb

/-- The scan counts every bit exactly if no byte stops it (R150). -/
theorem lzcFrom_eq_all_iff (i : Nat) (bs : Bytes) : lzcFrom i bs = 8 * (i + bs.length) ↔ ∀ b ∈ bs, b = 0 := by
  induction bs generalizing i with
  | nil => simp [lzcFrom]
  | cons b rest ih =>
    by_cases hb : b = 0
    · have hshift : i + (b :: rest).length = i + 1 + rest.length := (Nat.succ_add_eq_add_succ i rest.length).symm
      rw [hshift, hb, lzcFrom_cons_zero, ih]
      simp
    · have hle := clz8_le_seven hb
      rw [lzcFrom_cons_of_ne hb]
      refine iff_of_false ?_ fun hall => hb (hall b List.mem_cons_self)
      rw [List.length_cons]; omega

/-- The scan ends at the first non-zero byte, whatever comes after it (R150, R153). -/
theorem lzcFrom_eq_of_first_ne_zero (i : Nat) {bs : Bytes} {k : Nat} (hk : k < bs.length) (hne : bs[k] ≠ 0)
    (hzero : ∀ j (hj : j < k), bs[j] = 0) : lzcFrom i bs = 8 * (i + k) + clz8 bs[k] := by
  induction bs generalizing i k with
  | nil => exact absurd hk (Nat.not_lt_zero k)
  | cons b rest ih =>
    cases k with
    | zero => exact lzcFrom_cons_of_ne hne i rest
    | succ k =>
      have hb : b = 0 := hzero 0 k.succ_pos
      have hrest := ih (i + 1) (Nat.lt_of_succ_lt_succ hk) hne fun j hj => hzero (j + 1) (Nat.succ_lt_succ hj)
      rw [hb, lzcFrom_cons_zero, hrest, List.getElem_cons_succ]
      omega

/-- Settles O55: the bound, the all-zero digest, and the byte that ends the scan. -/
theorem lzcIsDecidedByTheFirstNonZeroByte : Obligations.LzcIsDecidedByTheFirstNonZeroByte := by
  refine ⟨fun d => ⟨lzc_le d, ?allZero⟩, fun d k hk hne hzero => ?firstNonZero⟩
  case allZero =>
    have hscan := lzcFrom_eq_all_iff 0 d.toList
    rw [Vector.length_toList] at hscan
    exact hscan.trans (by simp [Vector.mem_iff_getElem, forall_comm (α := Byte)])
  case firstNonZero =>
    have hscan := lzcFrom_eq_of_first_ne_zero 0 (bs := d.toList) (k := k) (by simpa using hk)
      (by simpa using hne) (by simpa using hzero)
    rwa [Vector.getElem_toList, Nat.zero_add] at hscan

/-! ### The digest as a number -/

/-- The number `a` with the bytes `bs` appended, most significant byte first (R152). -/
def appendBytes (a : Nat) (bs : Bytes) : Nat := bs.foldl (fun acc b => 256 * acc + b.toNat) a

theorem appendBytes_cons (a : Nat) (b : Byte) (rest : Bytes) :
    appendBytes a (b :: rest) = appendBytes (256 * a + b.toNat) rest := rfl

/-- A byte appended to a non-zero number moves the highest 1 up by 8. -/
theorem log2_append_byte {a : Nat} (ha : a ≠ 0) (b : Byte) : Nat.log2 (256 * a + b.toNat) = Nat.log2 a + 8 := by
  obtain ⟨hlo, hhi⟩ := (Nat.log2_eq_iff ha).mp rfl
  have hb := b.isLt
  rw [Nat.log2_eq_iff (by omega)]
  constructor <;> simp only [Nat.pow_succ] at * <;> omega

/-- Bytes appended to a non-zero number leave it non-zero and move its highest 1 up by 8 each. -/
theorem log2_appendBytes {a : Nat} (ha : a ≠ 0) (bs : Bytes) :
    appendBytes a bs ≠ 0 ∧ Nat.log2 (appendBytes a bs) = Nat.log2 a + 8 * bs.length := by
  induction bs generalizing a with
  | nil => exact ⟨ha, rfl⟩
  | cons b rest ih =>
    obtain ⟨hne, hlog⟩ := ih (a := 256 * a + b.toNat) (by omega)
    refine ⟨hne, hlog.trans ?_⟩
    rw [log2_append_byte ha, List.length_cons]
    omega

/-- The scan from byte `i` on counts the leading zeros of the big-endian number of the bytes left, and 8 for each byte
before (R150, R152). -/
theorem lzcFrom_eq_leading_zeros (i : Nat) (bs : Bytes) :
    lzcFrom i bs = if appendBytes 0 bs = 0 then 8 * (i + bs.length)
      else 8 * (i + bs.length) - 1 - Nat.log2 (appendBytes 0 bs) := by
  induction bs generalizing i with
  | nil => rfl
  | cons b rest ih =>
    have hshift : i + (b :: rest).length = i + 1 + rest.length := (Nat.succ_add_eq_add_succ i rest.length).symm
    rw [hshift, appendBytes_cons, Nat.mul_zero, Nat.zero_add]
    by_cases hb : b = 0
    · rw [hb, lzcFrom_cons_zero]
      exact ih (i + 1)
    · have hdigit : b.toNat ≠ 0 := BitVec.toNat_ne_iff_ne.mpr hb
      obtain ⟨hne, hlog⟩ := log2_appendBytes hdigit rest
      have hbits := clz8_add_log2 hb
      rw [if_neg hne, hlog, lzcFrom_cons_of_ne hb]
      omega

/-- Settles O53: the scan over the 32 bytes of the digest. -/
theorem lzcCountsTheBigNumbersLeadingZeros : Obligations.LzcCountsTheBigNumbersLeadingZeros := by
  intro d
  have hscan := lzcFrom_eq_leading_zeros 0 d.toList
  rw [Vector.length_toList] at hscan
  exact hscan

end Sys2Proof.Machine
end

section
/-! PROOFS. One step of the search engine: the acceptance of an operation, what an iteration does in each of its three
cases, that a found nonce verifies, and how a search ends (44_search_engine.md R160, R161, R163 to R166, R169, R170). -/

namespace Sys2Proof.Machine

open Sys2Proof

/-! ### Acceptance -/

/-- With a valid target and 32 seed bytes neither check of the acceptance fails (R160, R180). -/
theorem startOperation_of_ready (m : Mode) {s : State} (ht : s.target ≠ 0) (hc : s.seedCnt = 32) :
    startOperation m s = setMode m (beginOperation s) := by
  obtain ⟨hzero, -⟩ | ⟨-, hlen, -⟩ | ⟨-, -, h⟩ := startOperation_cases m s
  · exact absurd hzero ht
  · exact absurd hc hlen
  · exact h

theorem exec_search_of_ready {s : State} (hidle : s.mode = .idle) (ht : s.target ≠ 0) (hc : s.seedCnt = 32) :
    exec .search s = .next (setMode .search (beginOperation s)) := by
  rw [exec_idle .search hidle, idlePerform, startOperation_of_ready .search ht hc]

theorem exec_verify_of_ready {s : State} (hidle : s.mode = .idle) (ht : s.target ≠ 0) (hc : s.seedCnt = 32) :
    exec .verify s = .next (setMode .verify (beginOperation s)) := by
  rw [exec_idle .verify hidle, idlePerform, startOperation_of_ready .verify ht hc]

/-- Settles O17. -/
theorem searchIsAccepted : Obligations.SearchIsAccepted := fun _ => exec_search_of_ready

/-! ### One iteration -/

/-- What a search iteration leaves when the candidate whose nonce `s` holds, hashed and counted, meets the target (R163
to R165). -/
def succeeded (s : State) : State := setMode .idle (setDone (decide (s64 s.nonce > Config.diagThreshold)) (captured s))

section

variable {s : State}

theorem engineStep_search_of_abort (hm : s.mode = .search) (ha : s.abortReq = true) : engineStep s = takeAbort s := by
  rw [engineStep_search hm]
  obtain ⟨-, h⟩ | ⟨hno, -⟩ | ⟨hno, -⟩ := searchStep_cases s
  · exact h
  · exact nomatch ha.symm.trans hno
  · exact nomatch ha.symm.trans hno

theorem engineStep_search_of_meets (hm : s.mode = .search) (ha : s.abortReq = false)
    (hmeets : meetsTarget s.seed s.target (s.nonce + 1) = true) : engineStep s = succeeded (hashing s) := by
  rw [engineStep_search hm]
  obtain ⟨hreq, -⟩ | ⟨-, -, h⟩ | ⟨-, hmiss, -⟩ := searchStep_cases s
  · exact nomatch ha.symm.trans hreq
  · exact h
  · exact nomatch hmeets.symm.trans hmiss

theorem engineStep_search_of_misses (hm : s.mode = .search) (ha : s.abortReq = false)
    (hmiss : meetsTarget s.seed s.target (s.nonce + 1) = false) : engineStep s = hashing s := by
  rw [engineStep_search hm]
  obtain ⟨hreq, -⟩ | ⟨-, hmeets, -⟩ | ⟨-, -, h⟩ := searchStep_cases s
  · exact nomatch ha.symm.trans hreq
  · exact nomatch hmiss.symm.trans hmeets
  · exact h

theorem engineStep_verify_of_meets (hm : s.mode = .verify) (ha : s.abortReq = false)
    (hmeets : meetsTarget s.seed s.target s.nonce = true) :
    engineStep s = setDone false (captured (setMode .idle (setIters 1 s))) := by
  rw [engineStep_verify hm]
  obtain ⟨hreq, -⟩ | ⟨-, -, h⟩ | ⟨-, hmiss, -⟩ := verifyStep_cases s
  · exact nomatch ha.symm.trans hreq
  · exact h
  · exact nomatch hmeets.symm.trans hmiss

end

/-- Settles O22, by the case of the iteration: abort, success, next candidate. -/
theorem searchIteration : Obligations.SearchIteration := by
  intro s hm
  refine ⟨engineStep_search_of_abort hm, fun ha => ⟨fun hle => ?success, fun hlt => ?next⟩⟩
  case success => exact engineStep_search_of_meets hm ha ((meets_iff _ _).mpr hle)
  case next => exact engineStep_search_of_misses hm ha ((meets_false_iff _ _).mpr hlt)

/-! ### A found nonce verifies -/

/-- A candidate that meets a target meets every lower one (R145). -/
theorem meetsTarget_of_le {seed : Bytes32} {t t' : BitVec 8} {n : Word64} (h : meetsTarget seed t n = true)
    (hle : t'.toNat ≤ t.toNat) : meetsTarget seed t' n = true :=
  (meets_iff _ t').mpr (hle.trans ((meets_iff _ t).mp h))

/-- A `VERIFY` whose candidate meets the target succeeds, with that candidate as its result (R180, R182). -/
theorem exec_verify_of_meets {s : State} (hidle : s.mode = .idle) (ht : s.target ≠ 0) (hc : s.seedCnt = 32)
    (hmeets : meetsTarget s.seed s.target s.nonce = true) :
    ∃ u, exec .verify s = .next u ∧ (engineStep u).status.done = true ∧ (engineStep u).status.err = false ∧
      (engineStep u).mode = .idle ∧ (engineStep u).result = (captured s).result := by
  refine ⟨_, exec_verify_of_ready hidle ht hc, ?_⟩
  rw [engineStep_verify_of_meets (s := setMode .verify (beginOperation s)) rfl rfl hmeets]
  exact ⟨rfl, rfl, rfl, rfl⟩

/-- Settles O27: the verification hashes the candidate that the search found, and compares the same count. -/
theorem foundNonceVerifies : Obligations.FoundNonceVerifies := by
  intro s target' hm hc ha hmeets hpos hle
  have hfound : engineStep s = succeeded (hashing s) := engineStep_search_of_meets hm ha hmeets
  have htarget : target' ≠ 0 := by rintro rfl; exact absurd hpos (Nat.not_lt_zero 0)
  have hmeets' : meetsTarget s.seed target' (s.nonce + 1) = true := meetsTarget_of_le hmeets hle
  rw [hfound]
  exact ⟨rfl, rfl, rfl,
    exec_verify_of_meets (s := { succeeded (hashing s) with target := target' }) rfl htarget hc hmeets'⟩

/-! ### How a search ends -/

/-- A command of a busy block leaves the mode, or is a reset (R97). -/
theorem busyPerform_mode_or_reset (i : Instr) (s : State) :
    (busyPerform i s).mode = s.mode ∨ busyPerform i s = applyResetValues s := by
  cases i with
  | srst => exact .inr rfl
  | _ => exact .inl rfl

/-- An engine step of a search goes on, or ends it by success or abort (R170). -/
theorem engineStep_search_mode {s : State} (hm : s.mode = .search) :
    (engineStep s).mode = .search ∨ (engineStep s).mode = .idle ∧
      ((engineStep s).status.done = true ∨ (engineStep s).status.aborted = true) := by
  rw [engineStep_search hm]
  obtain ⟨-, h⟩ | ⟨-, -, h⟩ | ⟨-, -, h⟩ := searchStep_cases s
  · rw [h]; exact .inr ⟨rfl, .inr rfl⟩
  · rw [h]; exact .inr ⟨rfl, .inl rfl⟩
  · rw [h]; exact .inl hm

/-- No case of a search iteration touches the error report (R170). -/
theorem engineStep_search_error {s : State} (hm : s.mode = .search) :
    (engineStep s).status.err = s.status.err ∧ (engineStep s).errInfo = s.errInfo := by
  rw [engineStep_search hm]
  obtain ⟨-, h⟩ | ⟨-, -, h⟩ | ⟨-, -, h⟩ := searchStep_cases s <;> rw [h] <;> exact ⟨rfl, rfl⟩

/-- Settles O29: of the effects that a busy block admits only the engine's step and a reset change the mode. -/
theorem searchHasNoErrorPath : Obligations.SearchHasNoErrorPath := by
  refine ⟨fun _ => engineStep_search_error, fun s t h hm hne => ?_⟩
  have hbusy : s.mode ≠ .idle := by rw [hm]; nofun
  obtain ⟨e, rest, -, heff⟩ := step_effect h
  cases heff with
  | engine =>
    obtain ⟨hidle, hend⟩ := (engineStep_search_mode (s := { s with agenda := rest }) hm).resolve_left hne
    exact ⟨hidle, or_assoc.mp (.inl hend)⟩
  | reset => exact ⟨rfl, .inr (.inr rfl)⟩
  | busyCommand i =>
    have hreset := (busyPerform_mode_or_reset i { s with agenda := rest }).resolve_left fun hk => hne (hk.trans hm)
    rw [hreset]
    exact ⟨rfl, .inr (.inr rfl)⟩
  | idleCommand _ hidle | illegal _ _ _ hidle | nonceLoWritten _ hidle | nonceHiWritten _ hidle =>
    exact absurd hidle hbusy
  | read | dropped | acknowledged | irqEnabled | ignored => exact absurd hm hne

end Sys2Proof.Machine
end

section
/-! PROOFS. Runs of a search: the state after any number of candidates that do not meet the target, and the first that
does (44_search_engine.md R166 to R168, R171). -/

namespace Sys2Proof.Machine

open Sys2Proof

/-! ### The candidates -/

theorem candidate_zero (start : Word64) : candidate start 0 = start := BitVec.add_zero start

theorem candidate_succ (start : Word64) (k : Nat) : candidate start (k + 1) = candidate start k + 1 := by
  rw [candidate, candidate, BitVec.add_assoc, BitVec.ofNat_add]
  rfl

/-- One of the first `k` increments from `start` was the one from 2^63 - 1 (R166). -/
def crossed (start : Word64) : Nat → Bool
  | 0 => false
  | k + 1 => crossed start k || decide (candidate start k = maxSignedNonce)

/-- The increment from 2^63 - 1 is the one to -2^63 (R166). -/
theorem candidate_eq_maxSignedNonce_iff (start : Word64) (k : Nat) :
    candidate start k = maxSignedNonce ↔ candidate start (k + 1) = 0x8000000000000000 := by
  rw [candidate_succ, maxSignedNonce]
  constructor <;> intro h <;> bv_omega

/-- The crossing is seen in the candidates: one of them is -2^63 (R166). -/
theorem crossed_iff (start : Word64) (k : Nat) :
    crossed start k = true ↔ ∃ i, 1 ≤ i ∧ i ≤ k ∧ candidate start i = 0x8000000000000000 := by
  induction k with
  | zero => exact ⟨nofun, fun ⟨i, hi, hi', _⟩ => absurd hi (by omega)⟩
  | succ k ih =>
    rw [crossed, Bool.or_eq_true, decide_eq_true_iff, candidate_eq_maxSignedNonce_iff, ih]
    constructor
    · rintro (⟨i, hi, hik, h⟩ | h)
      · exact ⟨i, hi, Nat.le_succ_of_le hik, h⟩
      · exact ⟨k + 1, k.succ_pos, le_rfl, h⟩
    · rintro ⟨i, hi, hik, h⟩
      obtain hle | rfl := Nat.le_succ_iff.mp hik
      · exact .inl ⟨i, hi, hle, h⟩
      · exact .inr h

/-! ### Past candidates that do not meet the target -/

/-- A search that was in `s`, `k` candidates later: only `NONCE`, `ITERS` and `NWRAP` have changed (R163, R166). -/
def searchedPast (s : State) (k : Nat) : State :=
  { s with
    nonce := candidate s.nonce k
    iters := s.iters + BitVec.ofNat 64 k
    status := { s.status with nwrap := s.status.nwrap || crossed s.nonce k } }

theorem searchedPast_zero (s : State) : searchedPast s 0 = s := by
  simp [searchedPast, candidate_zero, crossed]

/-- The next candidate is hashed in the state one candidate on (R163). -/
theorem hashing_searchedPast (s : State) (k : Nat) : hashing (searchedPast s k) = searchedPast s (k + 1) := by
  have hiters : s.iters + BitVec.ofNat 64 (k + 1) = s.iters + BitVec.ofNat 64 k + 1 := candidate_succ s.iters k
  rw [searchedPast, searchedPast, hiters, candidate_succ, crossed, ← Bool.or_assoc]
  rfl

section

variable {s : State} {k : Nat}

theorem engineStep_searchedPast (hm : s.mode = .search) (ha : s.abortReq = false)
    (hmiss : meetsTarget s.seed s.target (candidate s.nonce (k + 1)) = false) :
    engineStep (searchedPast s k) = searchedPast s (k + 1) := by
  rw [candidate_succ] at hmiss
  rw [engineStep_search_of_misses (s := searchedPast s k) hm ha hmiss, hashing_searchedPast]

theorem engineStep_searchedPast_of_meets (hm : s.mode = .search) (ha : s.abortReq = false)
    (hmeets : meetsTarget s.seed s.target (candidate s.nonce (k + 1)) = true) :
    engineStep (searchedPast s k) = succeeded (searchedPast s (k + 1)) := by
  rw [candidate_succ] at hmeets
  rw [engineStep_search_of_meets (s := searchedPast s k) hm ha hmeets, hashing_searchedPast]

end

/-! ### Runs -/

/-- A run that reached `t` goes on from `t`. -/
theorem runSteps_add_of_run {a : Nat} {s t : State} (h : runSteps a s = .next t) (b : Nat) :
    runSteps (a + b) s = runSteps b t := by
  induction a generalizing s with
  | zero => cases h; rw [Nat.zero_add]
  | succ a ih =>
    cases hs : step s with
    | next u =>
      rw [runSteps_succ_of_step a hs] at h
      rw [Nat.add_right_comm, runSteps_succ_of_step (a + b) hs, ih h]
    | fault f => simp only [runSteps, hs] at h; cases h
    | refused r => simp only [runSteps, hs] at h; cases h

/-- A run with nothing left of its agenda takes the engine's step next (log entry 1). -/
theorem runSteps_succ_of_run {k : Nat} {s t : State} (h : runSteps k s = .next t) (ht : t.agenda = []) :
    runSteps (k + 1) s = .next (engineStep t) := by
  rw [runSteps_add_of_run h 1, runSteps_succ_of_step 0 (step_of_agenda_nil ht), runSteps]

section

variable {s : State}

/-- By induction on the candidates, none of which meets the target: each takes the search one further (R168). -/
theorem runSteps_search_misses (hm : s.mode = .search) (ha : s.abortReq = false) (hagenda : s.agenda = []) (k : Nat)
    (hmiss : ∀ i, 1 ≤ i → i ≤ k → meetsTarget s.seed s.target (candidate s.nonce i) = false) :
    runSteps k s = .next (searchedPast s k) := by
  induction k with
  | zero => rw [searchedPast_zero, runSteps]
  | succ k ih =>
    have hrun : runSteps k s = .next (searchedPast s k) := ih fun i hi hik => hmiss i hi (Nat.le_succ_of_le hik)
    rw [runSteps_succ_of_run hrun hagenda, engineStep_searchedPast hm ha (hmiss (k + 1) k.succ_pos le_rfl)]

/-- The first candidate that meets the target ends the search (R167). -/
theorem runSteps_search_finds (hm : s.mode = .search) (ha : s.abortReq = false) (hagenda : s.agenda = []) {k : Nat}
    (hk : 1 ≤ k) (hmeets : meetsTarget s.seed s.target (candidate s.nonce k) = true)
    (hfirst : ∀ i, 1 ≤ i → i < k → meetsTarget s.seed s.target (candidate s.nonce i) = false) :
    runSteps k s = .next (succeeded (searchedPast s k)) := by
  obtain ⟨n, rfl⟩ := Nat.exists_eq_add_of_le' hk
  have hrun : runSteps n s = .next (searchedPast s n) :=
    runSteps_search_misses hm ha hagenda n fun i hi hin => hfirst i hi (Nat.lt_succ_of_le hin)
  rw [runSteps_succ_of_run hrun hagenda, engineStep_searchedPast_of_meets hm ha hmeets]

end

/-- Settles O26. -/
theorem searchGoesOnWithoutACap : Obligations.SearchGoesOnWithoutACap := by
  intro s k hm ha hagenda hmiss
  exact ⟨s.status.nwrap || crossed s.nonce k, by rw [Bool.or_eq_true, crossed_iff],
    runSteps_search_misses hm ha hagenda k hmiss⟩

/-- Settles O25: the command starts the search, which passes the candidates before the `k`-th and ends at that one. -/
theorem searchFindsTheFirstCandidate : Obligations.SearchFindsTheFirstCandidate := by
  intro s k hidle ht hc hagenda hk hmeets hfirst
  have hstart : step s = .next (setMode .search (beginOperation { s with agenda := [] })) :=
    (stepRunsTheWrittenCommand s _ .search [] hagenda (decode_encode .search)).trans (exec_search_of_ready hidle ht hc)
  refine ⟨fun j hj => ?running, ?found⟩
  case running =>
    refine ⟨_, (runSteps_succ_of_step j hstart).trans (runSteps_search_misses rfl rfl rfl j fun i hi hij => ?_),
      rfl, rfl, rfl⟩
    exact hfirst i hi (hij.trans_lt hj)
  case found =>
    refine ⟨_, (runSteps_succ_of_step k hstart).trans (runSteps_search_finds rfl rfl rfl hk hmeets hfirst),
      rfl, rfl, BitVec.zero_add _, rfl, rfl, rfl, lzc_toNat _, rfl, rfl, rfl, crossed_iff s.nonce k,
      decide_eq_true_iff, rfl, rfl, rfl, rfl, rfl, rfl, rfl⟩

end Sys2Proof.Machine
end

section
/-! PROOFS. The verification: its acceptance, its one engine step in each of the three cases, and that it succeeds
exactly when the candidate's count reaches the target (45_verification.md R180, R182, R183). -/

namespace Sys2Proof.Machine

open Sys2Proof

/-! ### Acceptance -/

/-- Settles O18. -/
theorem verifyIsAccepted : Obligations.VerifyIsAccepted := fun _ => exec_verify_of_ready

/-! ### The verification step -/

/-- A success that no nonce over the threshold comes with leaves `HINONCE` as it was (R182). -/
theorem setDone_false (s : State) : setDone false s = { s with status := { s.status with done := true } } := by
  rw [setDone, Bool.or_false]

section

variable {s : State}

theorem engineStep_verify_of_abort (hm : s.mode = .verify) (ha : s.abortReq = true) : engineStep s = takeAbort s := by
  rw [engineStep_verify hm]
  obtain ⟨-, h⟩ | ⟨hno, -⟩ | ⟨hno, -⟩ := verifyStep_cases s
  · exact h
  · exact nomatch ha.symm.trans hno
  · exact nomatch ha.symm.trans hno

theorem engineStep_verify_of_misses (hm : s.mode = .verify) (ha : s.abortReq = false)
    (hmiss : meetsTarget s.seed s.target s.nonce = false) :
    engineStep s = raise (.insufficientLeadingZeros s.target (BitVec.ofNat 9 (candidateCount s)))
      (setMode .idle (setIters 1 s)) := by
  rw [engineStep_verify hm]
  obtain ⟨hreq, -⟩ | ⟨-, hmeets, -⟩ | ⟨-, -, h⟩ := verifyStep_cases s
  · exact nomatch ha.symm.trans hreq
  · exact nomatch hmiss.symm.trans hmeets
  · exact h

end

/-- Settles O23, by the case of the step: abort, success, failure. -/
theorem verificationStep : Obligations.VerificationStep := by
  intro s hm
  refine ⟨engineStep_verify_of_abort hm, fun ha => ⟨fun hle => ?success, fun hlt => ?failure⟩⟩
  case success => exact (engineStep_verify_of_meets hm ha ((meets_iff _ _).mpr hle)).trans (setDone_false _)
  case failure => exact engineStep_verify_of_misses hm ha ((meets_false_iff _ _).mpr hlt)

/-! ### A verification as a whole -/

/-- Settles O24: the acceptance has cleared `DONE` and `ERR` (R161), so the one that the step sets tells the outcome. -/
theorem verificationIsConsistent : Obligations.VerificationIsConsistent := by
  intro s hidle ht hc
  refine ⟨_, exec_verify_of_ready hidle ht hc, rfl, ?_⟩
  intro z t
  obtain hle | hlt := le_or_gt s.target.toNat z
  · have hstep : t = setDone false (captured (setMode .idle (setIters 1 (setMode .verify (beginOperation s))))) :=
      engineStep_verify_of_meets rfl rfl ((meets_iff _ _).mpr hle)
    rw [hstep]
    exact ⟨rfl, iff_of_true rfl hle, iff_of_false nofun hle.not_gt, fun hlt => absurd hlt hle.not_gt⟩
  · have hstep : t = raise (.insufficientLeadingZeros s.target (BitVec.ofNat 9 z))
        (setMode .idle (setIters 1 (setMode .verify (beginOperation s)))) :=
      engineStep_verify_of_misses rfl rfl ((meets_false_iff _ _).mpr hlt)
    have hbound : z ≤ 254 := Nat.le_of_lt_succ (hlt.trans_le (Nat.le_of_lt_succ s.target.isLt))
    rw [hstep]
    exact ⟨rfl, iff_of_false nofun hlt.not_ge, iff_of_true rfl hlt, fun _ => ⟨rfl, rfl, lzc_toNat _, hbound⟩⟩

end Sys2Proof.Machine
end

section
/-! PROOFS. The control commands: what `NOP`, `SRST` and `ABORT` do, and that a search aborted and started again goes on
where it was stopped (46_control.md R190, R193 to R195). -/

namespace Sys2Proof.Machine

open Sys2Proof

/-! ### The commands -/

/-- Settles O9: of the words of opcode 0 only the one with every other bit clear decodes. -/
theorem nopChangesNothing : Obligations.NopChangesNothing := by
  refine ⟨rfl, fun _ => rfl, fun w hopc hne => ?_⟩
  have hzero : w.toNat ≠ 0 := fun h => hne (BitVec.eq_of_toNat_eq h)
  have hhigh : w.toNat / 256 ≠ 0 := by omega
  have hplain : plainInstr (w.toNat % 256) = some .nop := by rw [hopc]; rfl
  rw [decode_of_plainInstr hplain, decodeN_eq, if_neg hhigh]
  exact ⟨_, rfl⟩

/-- Settles O10: both resets leave the state of `applyResetValues`. -/
theorem softResetRestoresEveryResetValue : Obligations.SoftResetRestoresEveryResetValue := fun s =>
  ⟨applyResetValues s, rfl, rfl, rfl, rfl, rfl, rfl, rfl, rfl, rfl, rfl, fun _ h => Vector.getElem_replicate h,
    rfl, rfl, rfl, rfl, fun _ h => Vector.getElem_replicate h⟩

/-- Settles O12, in each mode. -/
theorem abortRequestsCancellation : Obligations.AbortRequestsCancellation :=
  ⟨fun _ hidle => exec_idle .abort hidle, fun _ hbusy => exec_busy .abort hbusy⟩

/-! ### Runs over the events of the agenda -/

/-- A run goes on with the next event of the agenda (log entry 1). -/
theorem runSteps_succ_of_event {k : Nat} {s t : State} {e : Event} {rest : List Event} (h : runSteps k s = .next t)
    (ht : t.agenda = e :: rest) : runSteps (k + 1) s = performEvent e { t with agenda := rest } := by
  rw [runSteps_add_of_run h 1, ← step_of_agenda_cons ht, runSteps]
  cases step t <;> rfl

/-- By induction on the engine's events: each takes a search past one candidate that does not meet the target (R163). -/
theorem runSteps_search_events {s : State} (hm : s.mode = .search) (ha : s.abortReq = false) {k : Nat}
    {rest : List Event} (hagenda : s.agenda = List.replicate k .engine ++ rest)
    (hmiss : ∀ i, 1 ≤ i → i ≤ k → meetsTarget s.seed s.target (candidate s.nonce i) = false) :
    runSteps k s = .next (searchedPast { s with agenda := rest } k) := by
  induction k generalizing rest with
  | zero =>
    rw [List.replicate_zero, List.nil_append] at hagenda
    rw [searchedPast_zero, runSteps, ← hagenda]
  | succ k ih =>
    rw [List.replicate_succ', List.append_assoc] at hagenda
    rw [runSteps_succ_of_event (ih hagenda fun i hi hik => hmiss i hi (Nat.le_succ_of_le hik)) rfl]
    exact congrArg _ (engineStep_searchedPast (s := { s with agenda := rest }) hm ha (hmiss (k + 1) k.succ_pos le_rfl))

/-! ### A search from its command on -/

/-- The state after the acceptance of a `SEARCH` (R160, R161). -/
def searchStarted (s : State) : State := setMode .search (beginOperation s)

/-- A search that was in `s`, `k` candidates later, the last of which may meet the target (R163). -/
def searchedTo (s : State) (k : Nat) : State :=
  if meetsTarget s.seed s.target (candidate s.nonce k) then succeeded (searchedPast s k) else searchedPast s k

/-- The host's start of a search, `k` steps of the engine, then `rest`. -/
def searchEvents (k : Nat) (rest : List Event) : List Event :=
  cmdWrite (encode .search) :: (List.replicate k .engine ++ rest)

theorem searchEvents_succ (k : Nat) (rest : List Event) :
    searchEvents (k + 1) rest = searchEvents k (.engine :: rest) := by
  rw [searchEvents, searchEvents, List.replicate_succ', List.append_assoc, List.singleton_append]

theorem engineStep_searchedPast_eq_searchedTo {s : State} (hm : s.mode = .search) (ha : s.abortReq = false) (k : Nat) :
    engineStep (searchedPast s k) = searchedTo s (k + 1) := by
  cases h : meetsTarget s.seed s.target (candidate s.nonce (k + 1)) with
  | true => rw [engineStep_searchedPast_of_meets hm ha h, searchedTo, if_pos h]
  | false => rw [engineStep_searchedPast hm ha h, searchedTo, h, if_neg Bool.false_ne_true]

section

variable {s : State}

/-- The command of a search and the engine's events after it, none of whose candidates meets the target. -/
theorem runSteps_command_misses (hidle : s.mode = .idle) (ht : s.target ≠ 0) (hc : s.seedCnt = 32) {k : Nat}
    {rest : List Event} (hagenda : s.agenda = searchEvents k rest)
    (hmiss : ∀ i, 1 ≤ i → i ≤ k → meetsTarget s.seed s.target (candidate s.nonce i) = false) :
    runSteps (k + 1) s = .next (searchedPast (searchStarted { s with agenda := rest }) k) := by
  have hstart : step s = .next (searchStarted { s with agenda := List.replicate k .engine ++ rest }) :=
    (stepRunsTheWrittenCommand s _ .search _ hagenda (decode_encode .search)).trans (exec_search_of_ready hidle ht hc)
  rw [runSteps_succ_of_step k hstart]
  exact runSteps_search_events rfl rfl rfl hmiss

/-- The command of a search and the engine's events after it, of whose candidates only the last may meet the target. -/
theorem runSteps_command (hidle : s.mode = .idle) (ht : s.target ≠ 0) (hc : s.seedCnt = 32) {k : Nat} (hk : 1 ≤ k)
    {rest : List Event} (hagenda : s.agenda = searchEvents k rest)
    (hmiss : ∀ i, 1 ≤ i → i < k → meetsTarget s.seed s.target (candidate s.nonce i) = false) :
    runSteps (k + 1) s = .next (searchedTo (searchStarted { s with agenda := rest }) k) := by
  obtain ⟨n, rfl⟩ := Nat.exists_eq_add_of_le' hk
  rw [searchEvents_succ] at hagenda
  have hrun := runSteps_command_misses hidle ht hc hagenda fun i hi hin => hmiss i hi (Nat.lt_succ_of_le hin)
  rw [runSteps_succ_of_event hrun rfl]
  exact congrArg _ (engineStep_searchedPast_eq_searchedTo (s := searchStarted { s with agenda := rest }) rfl rfl n)

end

/-! ### Abort and resumption -/

theorem candidate_candidate (start : Word64) (j k : Nat) :
    candidate (candidate start j) k = candidate start (j + k) := by
  rw [candidate, candidate, candidate, BitVec.add_assoc, ← BitVec.ofNat_add]

/-- What a search started in `s` leaves when an abort ends it after `j` candidates that do not meet the target (R194,
R195). -/
def abortedSearch (s : State) (j : Nat) : State := takeAbort (requestAbort (searchedPast (searchStarted s) j))

/-- A search started again after an abort is one started with the nonce at which the abort found it: the acceptance
clears whatever else the first start has left (R161, R195). -/
theorem searchStarted_abortedSearch (s : State) (j : Nat) (a b : List Event) :
    searchStarted { abortedSearch { s with agenda := a } j with agenda := b } =
      searchStarted (setNonce (candidate s.nonce j) { s with agenda := b }) := rfl

/-- The state with another `ITERS` and another `NWRAP`: where a resumed search differs from an uninterrupted one
(R161, R195). -/
def withTally (n : Word64) (w : Bool) (s : State) : State :=
  { s with iters := n, status := { s.status with nwrap := w } }

theorem succeeded_withTally (n : Word64) (w : Bool) (s : State) :
    succeeded (withTally n w s) = withTally n w (succeeded s) := rfl

theorem searchedPast_setNonce (s : State) (j k : Nat) :
    searchedPast (searchStarted (setNonce (candidate s.nonce j) s)) k =
      withTally (BitVec.ofNat 64 k) (crossed (candidate s.nonce j) k) (searchedPast (searchStarted s) (j + k)) := by
  simp [searchedPast, withTally, searchStarted, StatusBits.zero, candidate_candidate]

/-- A search started `j` candidates on ends as the one from the beginning, but for `ITERS` and `NWRAP` (R195). -/
theorem searchedTo_setNonce (s : State) (j k : Nat) :
    searchedTo (searchStarted (setNonce (candidate s.nonce j) s)) k =
      withTally (BitVec.ofNat 64 k) (crossed (candidate s.nonce j) k) (searchedTo (searchStarted s) (j + k)) := by
  have hnonce : candidate (searchStarted (setNonce (candidate s.nonce j) s)).nonce k =
      candidate (searchStarted s).nonce (j + k) := candidate_candidate s.nonce j k
  rw [searchedTo, searchedTo, hnonce, searchedPast_setNonce, succeeded_withTally, apply_ite (withTally _ _)]
  rfl

section

variable {s : State}

/-- The engine's step after the command takes the abort before it hashes another candidate (R194, R195). -/
theorem runSteps_command_abort (hidle : s.mode = .idle) (ht : s.target ≠ 0) (hc : s.seedCnt = 32) {j : Nat}
    {rest : List Event} (hagenda : s.agenda = searchEvents j (cmdWrite (encode .abort) :: .engine :: rest))
    (hmiss : ∀ i, 1 ≤ i → i ≤ j → meetsTarget s.seed s.target (candidate s.nonce i) = false) :
    runSteps (j + 3) s = .next (abortedSearch { s with agenda := rest } j) := by
  have hsearch := runSteps_command_misses hidle ht hc hagenda hmiss
  have habort : runSteps (j + 2) s =
      .next (requestAbort (searchedPast (searchStarted { s with agenda := .engine :: rest }) j)) := by
    rw [runSteps_succ_of_event hsearch rfl, performEvent_cmdWrite, executeCommand_of_decode (decode_encode .abort)]
    exact abortRequestsCancellation.2 _ nofun
  rw [runSteps_succ_of_event habort rfl]
  exact congrArg _ (engineStep_search_of_abort
    (s := requestAbort (searchedPast (searchStarted { s with agenda := rest }) j)) rfl rfl)

/-- A search that is started, aborted after `j` candidates, and started again for `k` more ends as an uninterrupted one
of `j + k` candidates, but for `ITERS` and `NWRAP` (R194, R195). -/
theorem runSteps_command_resumed (hidle : s.mode = .idle) (ht : s.target ≠ 0) (hc : s.seedCnt = 32) {j k : Nat}
    (hk : 1 ≤ k)
    (hagenda : s.agenda = searchEvents j (cmdWrite (encode .abort) :: .engine :: searchEvents k []))
    (hmiss : ∀ i, 1 ≤ i → i < j + k → meetsTarget s.seed s.target (candidate s.nonce i) = false) :
    runSteps (j + 3 + (k + 1)) s = .next (withTally (BitVec.ofNat 64 k) (crossed (candidate s.nonce j) k)
      (searchedTo (searchStarted { s with agenda := [] }) (j + k))) := by
  have hfirst : ∀ i, 1 ≤ i → i ≤ j → meetsTarget s.seed s.target (candidate s.nonce i) = false :=
    fun i hi hij => hmiss i hi (by omega)
  have hsecond : ∀ i, 1 ≤ i → i < k → meetsTarget s.seed s.target (candidate (candidate s.nonce j) i) = false := by
    intro i hi hik
    rw [candidate_candidate]
    exact hmiss (j + i) (by omega) (by omega)
  have hfirstRun := runSteps_command_abort hidle ht hc hagenda hfirst
  calc runSteps (j + 3 + (k + 1)) s
    _ = runSteps (k + 1) (abortedSearch { s with agenda := searchEvents k [] } j) :=
      runSteps_add_of_run hfirstRun (k + 1)
    _ = .next (searchedTo (searchStarted
          { abortedSearch { s with agenda := searchEvents k [] } j with agenda := [] }) k) :=
      runSteps_command (s := abortedSearch { s with agenda := searchEvents k [] } j) rfl ht hc hk rfl hsecond
    _ = .next (searchedTo (searchStarted (setNonce (candidate s.nonce j) { s with agenda := [] })) k) := by
      rw [searchStarted_abortedSearch]
    _ = _ := congrArg _ (searchedTo_setNonce { s with agenda := [] } j k)

end

theorem searchedTo_searchStarted_aborted (s : State) (k : Nat) :
    (searchedTo (searchStarted s) k).status.aborted = false := by
  rw [searchedTo]
  split <;> rfl

/-- `ITERS` counts from the start of the search (R161). -/
theorem searchedTo_searchStarted_iters (s : State) (k : Nat) :
    (searchedTo (searchStarted s) k).iters = BitVec.ofNat 64 k := by
  rw [searchedTo]
  split <;> exact BitVec.zero_add _

/-- Settles O28: the two runs end in the same state but for `ITERS` and `NWRAP`. -/
theorem abortedSearchResumes : Obligations.AbortedSearchResumes := by
  intro s j k hidle ht hc hmiss hk interrupted uninterrupted
  let u : State := searchedTo (searchStarted { s with agenda := [] }) (j + k)
  have hinterrupted : interrupted = searchEvents j (cmdWrite (encode .abort) :: .engine :: searchEvents k []) := by
    simp [interrupted, searchEvents]
  have huninterrupted : uninterrupted = searchEvents (j + k) [] := by simp [uninterrupted, searchEvents]
  have hresumed : runSteps (j + k + 4) { s with agenda := interrupted } =
      .next (withTally (BitVec.ofNat 64 k) (crossed (candidate s.nonce j) k) u) := by
    rw [show j + k + 4 = j + 3 + (k + 1) by omega]
    exact runSteps_command_resumed (s := { s with agenda := interrupted }) hidle ht hc hk hinterrupted hmiss
  have hunbroken : runSteps (j + k + 1) { s with agenda := uninterrupted } = .next u :=
    runSteps_command (s := { s with agenda := uninterrupted }) hidle ht hc (hk.trans (Nat.le_add_left k j))
      huninterrupted hmiss
  exact ⟨_, u, hresumed, hunbroken, rfl, rfl, rfl, rfl, rfl, searchedTo_searchStarted_aborted _ _, rfl,
    searchedTo_searchStarted_iters _ _⟩

end Sys2Proof.Machine
end

section
/-! PROOFS. The exceptions and the interrupt line: the report of each error that a command raises, and `irq` as the host
sees its causes (60_exceptions.md R204, R205, R207, R208, R210). -/

namespace Sys2Proof.Machine

open Sys2Proof

/-! ### SeedLengthMismatch and InvalidDifficulty -/

/-- An idle block answers either operation's command by the acceptance (R160, R180). -/
theorem exec_operation {i : Instr} (hi : i = .search ∨ i = .verify) {s : State} (hidle : s.mode = .idle) :
    ∃ m, exec i s = .next (startOperation m s) := by
  obtain rfl | rfl := hi
  · exact ⟨.search, exec_idle .search hidle⟩
  · exact ⟨.verify, exec_idle .verify hidle⟩

/-- Without a valid target the seed count is not looked at (R205, R208). -/
theorem startOperation_of_target_zero (m : Mode) {s : State} (ht : s.target = 0) :
    startOperation m s = raise (.invalidDifficulty Config.minTarget 0) (beginOperation s) := by
  obtain ⟨-, h⟩ | ⟨hne, -⟩ | ⟨hne, -⟩ := startOperation_cases m s
  · exact h
  · exact absurd ht hne
  · exact absurd ht hne

theorem startOperation_of_seedCnt_ne (m : Mode) {s : State} (ht : s.target ≠ 0) (hc : s.seedCnt ≠ 32) :
    startOperation m s = raise (.seedLengthMismatch Config.seedLen s.seedCnt) (beginOperation s) := by
  obtain ⟨hzero, -⟩ | ⟨-, -, h⟩ | ⟨-, hlen, -⟩ := startOperation_cases m s
  · exact absurd hzero ht
  · exact h
  · exact absurd hlen hc

/-- Zero is the one request under the minimum (R140). -/
theorem constructTarget_zero (s : State) :
    constructTarget 0 s = raise (.invalidDifficulty Config.minTarget 0) (setTarget 0 s) :=
  if_pos (by decide)

/-- Settles O19: the two ways to the report, and the two commands that write a target that is not zero. -/
theorem invalidDifficultyIsReported : Obligations.InvalidDifficultyIsReported := by
  refine ⟨fun s hidle => ?request, fun s i hi hidle ht => ?operation, fun s i hi hidle => ?mended⟩
  case request => rw [exec_idle _ hidle, idlePerform, constructTarget_zero]; rfl
  case operation =>
    obtain ⟨m, hexec⟩ := exec_operation hi hidle
    rw [hexec, startOperation_of_target_zero m ht]
    rfl
  case mended =>
    obtain rfl | ⟨b, hb, rfl⟩ := hi
    · have hpreset : Config.defaultTarget ≠ 0 := by decide
      exact ⟨_, exec_idle .settgtdef hidle, hpreset⟩
    · have hpos : 1 ≤ b.toNat := by bv_omega
      exact ⟨_, settgtWritesAValidTarget s b hidle hpos, hb⟩

/-- Settles O20: the target is valid, so the acceptance fails at the seed count. -/
theorem operationsNeed32SeedBytes : Obligations.OperationsNeed32SeedBytes := by
  intro s i hi hidle ht hc
  obtain ⟨m, hexec⟩ := exec_operation hi hidle
  rw [hexec, startOperation_of_seedCnt_ne m ht hc, BitVec.ofNat_toNat]
  rfl

/-! ### IllegalCommand -/

/-- Settles O8: the access delivers the word, and an idle block reports it. -/
theorem illegalCommandIsReported : Obligations.IllegalCommandIsReported := by
  intro s w e hd hidle
  obtain ⟨hdelivered, -, -, hillegal⟩ := commandDeliveryOrder w s
  exact hdelivered.trans ((hillegal ⟨e, hd⟩).trans (if_neg (not_not_intro hidle)))

/-! ### The interrupt line -/

/-- The six bits of `STATUS` and `IRQ_EN`, one by one (R26, R28). -/
theorem exists_bit1to6_iff (p : Nat → Prop) :
    (∃ b, 1 ≤ b ∧ b ≤ 6 ∧ p b) ↔ p 1 ∨ p 2 ∨ p 3 ∨ p 4 ∨ p 5 ∨ p 6 := by
  constructor
  · rintro ⟨b, hlo, hhi, hb⟩
    interval_cases b <;> simp only [hb, true_or, or_true]
  · rintro (h | h | h | h | h | h)
    exacts [⟨1, by decide, by decide, h⟩, ⟨2, by decide, by decide, h⟩, ⟨3, by decide, by decide, h⟩,
      ⟨4, by decide, by decide, h⟩, ⟨5, by decide, by decide, h⟩, ⟨6, by decide, by decide, h⟩]

theorem irq_iff (s : State) : irq s = true ↔
    (s.status.done = true ∧ s.irqEn.done = true) ∨ (s.status.err = true ∧ s.irqEn.err = true) ∨
    (s.status.hinonce = true ∧ s.irqEn.hinonce = true) ∨ (s.status.nwrap = true ∧ s.irqEn.nwrap = true) ∨
    (s.status.busyviol = true ∧ s.irqEn.busyviol = true) ∨ (s.status.aborted = true ∧ s.irqEn.aborted = true) := by
  simp only [irq, Bool.or_eq_true, Bool.and_eq_true, or_assoc]

/-- Settles O43: the bits that a host reads at 1 to 6 are the flags and their enables. -/
theorem irqIsTheOrOfEnabledFlags : Obligations.IrqIsTheOrOfEnabledFlags := by
  intro s
  have hstatus : memRead s 0x0C = statusBitsWord s.status (busy s) := memRead_regOffset s .status
  have henable : memRead s 0x10 = statusBitsWord s.irqEn false := memRead_regOffset s .irqEn
  rw [irq_iff, hstatus, henable, exists_bit1to6_iff]
  simp only [statusBitsWord_bit1, statusBitsWord_bit2, statusBitsWord_bit3, statusBitsWord_bit4, statusBitsWord_bit5,
    statusBitsWord_bit6]

end Sys2Proof.Machine
end

section
/-! PROOFS. Reset and hazards: what a reset leaves of the host's side, what a host reads after it, the busy rule, and
the reading of a running `NONCE` by halves (70_reset_and_hazards.md R230, R232, R240, R242). -/

namespace Sys2Proof.Machine

open Sys2Proof

/-! ### Reset -/

/-- Settles O11: both resets are `applyResetValues`. -/
theorem resetsKeepTheHostSide : Obligations.ResetsKeepTheHostSide := fun _ => ⟨rfl, rfl⟩

/-- A cleared buffer reads 0 in every word (R43). -/
theorem laneWord_replicate_zero (w : Fin 8) : laneWord (Vector.replicate 32 0) w = 0 := by
  simp only [laneWord, Vector.getElem_replicate]
  rfl

/-- After reset every register but three reads 0 (R43, R63). -/
theorem readReg_reset_of_ne {r : Reg} (hid : r ≠ .id) (hcfg : r ≠ .cfg) (htarget : r ≠ .target) :
    readReg State.reset r = 0 := by
  cases r with
  | id => exact absurd rfl hid
  | cfg => exact absurd rfl hcfg
  | target => exact absurd rfl htarget
  | seedW w | resDigestW w => exact laneWord_replicate_zero w
  | _ => decide

/-- Settles O44: the three offsets named are those of the three registers that do not read 0. -/
theorem readsAfterReset : Obligations.ReadsAfterReset := by
  refine ⟨memRead_regOffset _ .id, memRead_regOffset _ .cfg, memRead_regOffset _ .target, rfl, rfl, rfl,
    fun off hid hcfg htarget => ?_⟩
  cases hr : regAt off with
  | none => exact memRead_of_regAt_none hr
  | some r =>
    obtain rfl := regOffset_of_regAt hr
    rw [memRead_regOffset]
    refine readReg_reset_of_ne ?_ ?_ ?_ <;> rintro rfl
    · exact hid rfl
    · exact hcfg rfl
    · exact htarget rfl

/-! ### The busy rule -/

/-- A busy block drops every word but those of the three control commands, legal or illegal (R97, R240). -/
theorem executeCommand_of_busy {w : Word} {s : State} (hbusy : s.mode ≠ .idle) (hnop : w ≠ encode .nop)
    (hsrst : w ≠ encode .srst) (habort : w ≠ encode .abort) : executeCommand w s = .next (dropBusy s) := by
  cases hd : decode w with
  | ok i =>
    obtain rfl := eq_encode_of_decode hd
    have hcontrol : ¬ (i = .nop ∨ i = .srst ∨ i = .abort) := by
      rintro (rfl | rfl | rfl)
      · exact hnop rfl
      · exact hsrst rfl
      · exact habort rfl
    rw [executeCommand_of_decode hd, exec_busy i hbusy, busyPerform_eq_dropBusy s hcontrol]
  | error e => rw [executeCommand_of_illegal hd, illegalWord, if_neg hbusy]

/-- Settles O21: an access writes the window, whose writes O40 gives offset by offset. -/
theorem busyBlockDropsWrites : Obligations.BusyBlockDropsWrites := by
  refine ⟨fun s w hbusy hnop hsrst habort => ?command, fun s off v hbusy hoff => ?nonce, fun s v _ => ?status,
    fun s v _ => ?irqEn, fun s off v haligned hoff => ?others⟩
  case command => exact (performEvent_cmdWrite w s).trans (executeCommand_of_busy hbusy hnop hsrst habort)
  all_goals obtain ⟨-, ⟨b, hstatus, hbits⟩, ⟨e, hirqEn, hread⟩, ⟨_, _, -, -, hlo, hhi⟩, haccess, hothers⟩ :=
    writesActOnTheRegisters s v
  case nonce =>
    rw [if_neg hbusy] at hlo hhi
    obtain rfl | rfl := hoff
    · exact (haccess 0x18 rfl).trans hlo
    · exact (haccess 0x1C rfl).trans hhi
  case status =>
    refine ⟨b, (haccess 0x0C rfl).trans hstatus, fun k hlow hhigh => ?_⟩
    rw [hbits k (by omega), decide_eq_true ⟨hlow, hhigh⟩, Bool.and_true]
  case irqEn => exact ⟨e, (haccess 0x10 rfl).trans hirqEn, hread⟩
  case others => exact (haccess off haligned).trans (hothers off haligned hoff)

/-! ### Reading `NONCE` by halves -/

/-- The engine changes `NONCE` by one at most (R163, R182). -/
theorem engineStep_nonce (s : State) : (engineStep s).nonce = s.nonce ∨ (engineStep s).nonce = s.nonce + 1 := by
  cases hm : s.mode with
  | idle => rw [engineStep_idle hm]; exact .inl rfl
  | search =>
    rw [engineStep_search hm]
    obtain ⟨-, h⟩ | ⟨-, -, h⟩ | ⟨-, -, h⟩ := searchStep_cases s
    · rw [h]; exact .inl rfl
    · rw [h]; exact .inr rfl
    · rw [h]; exact .inr rfl
  | verify =>
    rw [engineStep_verify hm]
    obtain ⟨-, h⟩ | ⟨-, -, h⟩ | ⟨-, -, h⟩ := verifyStep_cases s <;> rw [h] <;> exact .inl rfl

theorem engineSteps_add (a b : Nat) (s : State) : engineSteps (a + b) s = engineSteps b (engineSteps a s) := by
  induction a generalizing s with
  | zero => rw [Nat.zero_add, engineSteps]
  | succ a ih => rw [Nat.succ_add, engineSteps, engineSteps, ih]

/-- After `n` engine steps `NONCE` holds one of the first `n` candidates from where it was. -/
theorem engineSteps_nonce (n : Nat) (s : State) : ∃ i, i ≤ n ∧ (engineSteps n s).nonce = candidate s.nonce i := by
  induction n generalizing s with
  | zero => exact ⟨0, le_rfl, (candidate_zero s.nonce).symm⟩
  | succ n ih =>
    obtain ⟨i, hi, hsteps⟩ := ih (engineStep s)
    rw [engineSteps, hsteps]
    obtain h | h := engineStep_nonce s
    · exact ⟨i, Nat.le_succ_of_le hi, congrArg (candidate · i) h⟩
    · refine ⟨i + 1, Nat.succ_le_succ hi, ?_⟩
      calc candidate (engineStep s).nonce i
        _ = candidate (candidate s.nonce 1) i := congrArg (candidate · i) h
        _ = candidate s.nonce (i + 1) := by rw [candidate_candidate, Nat.add_comm]

theorem candidate_toNat (start : Word64) (k : Nat) : (candidate start k).toNat = (start.toNat + k) % 2 ^ 64 := by
  rw [candidate, BitVec.toNat_add, BitVec.toNat_ofNat, Nat.add_mod_mod]

/-- Increments too few to carry 2^32 times into the high half cannot bring it round: where it ends as it began, it was
the same all the time in between (R242). -/
theorem hiHalf_candidate_of_agreeing {x : Word64} {i j : Nat} (hij : i ≤ j)
    (hcarry : (x.toNat % 2 ^ 32 + j) / 2 ^ 32 < 2 ^ 32) (hagree : hiHalf (candidate x j) = hiHalf x) :
    hiHalf (candidate x i) = hiHalf x := by
  have hagreeNat := congrArg BitVec.toNat hagree
  apply BitVec.eq_of_toNat_eq
  rw [hiHalf_toNat, hiHalf_toNat, candidate_toNat] at hagreeNat ⊢
  have hx := x.isLt
  omega

/-- Settles O31: the high half of `NONCE` cannot have come round to the one first read, so it was that at the read of
the low half too. -/
theorem agreeingHighHalvesMeanNoTearing : Obligations.AgreeingHighHalvesMeanNoTearing := by
  intro s a b _ hcarry hagree
  have hlo (t : State) : memRead t 0x18 = loHalf t.nonce := memRead_regOffset t .nonceLo
  have hhi (t : State) : memRead t 0x1C = hiHalf t.nonce := memRead_regOffset t .nonceHi
  obtain ⟨i, hi, hmid⟩ := engineSteps_nonce a s
  obtain ⟨j, hj, hend⟩ := engineSteps_nonce b (engineSteps a s)
  rw [hmid, candidate_candidate, ← engineSteps_add] at hend
  rw [hhi, hhi, hend] at hagree
  have hcarries : (s.nonce.toNat % 2 ^ 32 + (i + j)) / 2 ^ 32 < 2 ^ 32 := by omega
  have hsame : hiHalf (engineSteps a s).nonce = hiHalf s.nonce := by
    rw [hmid]
    exact hiHalf_candidate_of_agreeing (Nat.le_add_right i j) hcarries hagree
  rw [hhi, hlo, ← hsame, hiHalf_toNat, loHalf_toNat, Nat.div_add_mod']

end Sys2Proof.Machine
end
